-- ==== Sys2Proof/Word.lean ====
section
/-! DEFINITION. The fixed widths of the block (spec/00_scope.md R13, R10): a byte is 8 bits, a duty value 16 bits, a bus
address 7 bits, all unsigned. -/

namespace Sys2Proof

/-- A byte, `0..255` (R13); also the width of the pointer `ptr` (R21). -/
abbrev Byte := BitVec 8

/-- A duty value, `0..65535` (R13). -/
abbrev Duty := BitVec 16

/-- A 7-bit bus address (R10). -/
abbrev BusAddr := BitVec 7

end Sys2Proof
end

