-- ==== Sys2Proof/Config.lean ====
section
/-! DEFINITION. The implementation parameters of spec/00_scope.md R8 to R11: what an implementation fixes and no operation
writes (spec/10_state.md R20). -/

namespace Sys2Proof

/-- How a frame ends (R11): by the drain running dry, or by an explicit end-of-transaction mark. -/
inductive Framing where
  | drain
  | eot
deriving DecidableEq, Repr

/-- The configuration a model takes as an argument (R8 to R11; notes/assumptions/1.md). -/
structure Config where
  /-- `N`, the channel count (R8). -/
  n : Nat
  /-- `DEVICE_ID`, map byte 0 (R9). -/
  deviceId : Byte
  /-- `I2C_ADDR`, used by the transceiver only (R10). -/
  i2cAddr : BusAddr
  /-- `FRAMING` (R11). -/
  framing : Framing
deriving DecidableEq, Repr

/-- The configurations the spec admits: `1 <= N <= 127` (R8); the other parameters are legal by their width. -/
abbrev Config.Valid (c : Config) : Prop := 1 ≤ c.n ∧ c.n ≤ 127

/-- DESIGN CHOICE (notes/assumptions/2.md), unsafe: the configuration that `State.reset` carries. The spec leaves `N`,
`DEVICE_ID` and `I2C_ADDR` open and gives these values as examples; `DRAIN` is its default (R11). No statement rests on it. -/
def Config.board : Config := { n := 2, deviceId := 0x10, i2cAddr := 0x08, framing := .drain }

end Sys2Proof
end

