-- ==== Sys2Proof/Syntax.lean ====
section
/-! DEFINITION. The block's operations (spec/30_encoding.md R90) and what selects them on its interface (R80 to R86). -/

namespace Sys2Proof

/-- The eight operations of R90, one per row of spec/opcode_table.json. -/
inductive Instr where
  /-- COLLECT: take one received byte into the frame (R120). -/
  | collect (b : Byte)
  /-- SETPTR: a 1-byte frame loads the pointer (R140). -/
  | setptr (p : Byte)
  /-- WRDUTY: a `2N`-byte frame replaces all duties; the operands are the `N` assembled values (R141, R87). -/
  | wrduty (v : List Duty)
  /-- DISCARD: a frame of any other length (R142). -/
  | discard
  /-- READ: serve one register-map byte (R160). -/
  | read
  /-- NOREAD: no read request is pending (R161). -/
  | noread
  /-- CANCEL: stop the block (R184). -/
  | cancel
  /-- RESET: back to the startup state (R231). -/
  | reset
deriving DecidableEq, Repr

/-- The run state (R27). -/
inductive RunState where
  | running
  | stopped
deriving DecidableEq, Repr

/-- One item the transceiver delivers during a drain (R80): `DATA(b)`, or `END`, the mark of a write transaction's end. -/
inductive Token where
  | data (b : Byte)
  | endMark
deriving DecidableEq, Repr

/-- What the interface shows the block and the decoder reads (the `encoding` and `select` columns of
spec/opcode_table.json): a token of the drain, a whole frame at its dispatch point, the read-service level, or the control
inputs at the start of a cycle together with the run state they meet. -/
inductive Code where
  | token (t : Token)
  | frame (bytes : List Byte)
  | service (rd : Bool)
  | control (rst : Bool) (run : RunState) (cancel : Bool)
deriving DecidableEq, Repr

/-- Why the decoder names no operation for a code. None of these is an error of the block (R88, R200). -/
inductive Reject where
  /-- The configuration is outside R8 (R215). -/
  | badConfiguration
  /-- An `END` token is no COLLECT (spec/opcode_table.json, row COLLECT). -/
  | endToken
  /-- In `FRAMING = DRAIN` an empty frame is never dispatched (R84, R121). -/
  | emptyFrame
  /-- Neither RESET nor CANCEL is selected (R205). -/
  | noControl
deriving DecidableEq, Repr

/-- What the decoder answers. -/
inductive Decoded where
  | instr (i : Instr)
  | rejected (r : Reject)
deriving DecidableEq, Repr

end Sys2Proof
end

