-- ==== Sys2Proof/Machine/Operands.lean ====
section
/-! DEFINITION. Operand forms: the byte order of a duty value, the assembly of WRDUTY's operands from frame bytes
(spec/30_encoding.md R87, spec/20_memory.md R55), the byte view of the duty file (spec/40_channel_bank.md R103), and the
saturating frame length (spec/10_state.md R24). -/

namespace Sys2Proof

/-- `hi : lo`, the 16-bit concatenation with `hi` in bits 15..8 (R14, R87). -/
def dutyOf (hi lo : Byte) : Duty := hi ++ lo

/-- `d[15:8]` (R51). -/
def dutyHi (d : Duty) : Byte := d.extractLsb' 8 8

/-- `d[7:0]` (R51). -/
def dutyLo (d : Duty) : Byte := d.extractLsb' 0 8

/-- WRDUTY's operands, `value[i] = fbuf[2i] : fbuf[2i+1]` for `i` in `0..N-1` (R87). A byte of the storage is always there
in a state of the block (R23); beyond the list the value 0 stands in (notes/assumptions/20.md). -/
def dutyOperands (n : Nat) (fbuf : List Byte) : List Duty :=
  (List.range n).map fun i => dutyOf (fbuf.getD (2 * i) 0) (fbuf.getD (2 * i + 1) 0)

/-- The byte view of duty values: high byte then low byte per channel, in channel order (R55, R103). -/
def dutyBytes (v : List Duty) : List Byte := v.flatMap fun d => [dutyHi d, dutyLo d]

/-- The length counter's value for a frame of `k` bytes: `k`, saturating at `2N+1` (R24). -/
def frameCount (n k : Nat) : Nat := min k (2 * n + 1)

end Sys2Proof
end

