-- ==== Sys2Proof/WellFormed.lean ====
section
/-! DEFINITION. Well-formed operations: what the field widths do not already force. The one check is that WRDUTY carries
exactly `N` values (spec/40_channel_bank.md R101: "always passes exactly `N` values"). -/

namespace Sys2Proof

/-- `i` is an operation of a block configured as `cfg`. -/
def Instr.wellFormed (cfg : Config) : Instr → Bool
  | .collect _ => true
  | .setptr _ => true
  | .wrduty v => v.length == cfg.n
  | .discard => true
  | .read => true
  | .noread => true
  | .cancel => true
  | .reset => true

end Sys2Proof
end

