-- ==== Sys2Proof/Decode.lean ====
section
/-! DEFINITION. The decoder: which operation a token, a frame, a read-service level or the control inputs select
(spec/30_encoding.md R80 to R90), and after it the encoder. -/

namespace Sys2Proof

/-- A token of the drain selects COLLECT if it is `DATA(b)`; `END` selects no operation (R120, R90). -/
def decodeToken : Token → Option Instr
  | .data b => some (.collect b)
  | .endMark => none

/-- The operation a frame selects at its dispatch point, by its length alone and in the order of R85. The operands are read
from the frame storage (R87). -/
def decodeFrame (n flen : Nat) (fbuf : List Byte) : Instr :=
  if flen = 1 then .setptr (fbuf.getD 0 0)
  else if flen = 2 * n then .wrduty (dutyOperands n fbuf)
  else .discard

/-- The read service selects READ or NOREAD by the level `rd` (R86). -/
def decodeService (rd : Bool) : Instr := if rd then .read else .noread

/-- The control inputs at the start of a cycle, in the order of R205: `rst` in any run state, `cancel` only while RUNNING. -/
def decodeControl (rst : Bool) (run : RunState) (cancel : Bool) : Option Instr :=
  if rst then some .reset
  else
    match run, cancel with
    | .running, true => some .cancel
    | _, _ => none

/-- The decoder over every code of the interface: total, and rejecting by name. A frame is given here as the whole byte
sequence the transceiver delivered; the block holds its first `2N` bytes and its saturated length (R23, R24). -/
def decode (cfg : Config) (c : Code) : Decoded :=
  if ¬cfg.Valid then .rejected .badConfiguration
  else
    match c with
    | .token t =>
      match decodeToken t with
      | some i => .instr i
      | none => .rejected .endToken
    | .frame bytes =>
      if cfg.framing = .drain ∧ bytes = [] then .rejected .emptyFrame
      else .instr (decodeFrame cfg.n (frameCount cfg.n bytes.length) (bytes.take (2 * cfg.n)))
    | .service rd => .instr (decodeService rd)
    | .control rst run cancel =>
      match decodeControl rst run cancel with
      | some i => .instr i
      | none => .rejected .noControl

/-- The encoder: a code that selects the operation, written from R82, R83 and R90. DISCARD has no format (R84): `2N+1` zero
bytes stand for it (DESIGN CHOICE, notes/assumptions/15.md). -/
def encode (cfg : Config) : Instr → Code
  | .collect b => .token (.data b)
  | .setptr p => .frame [p]
  | .wrduty v => .frame (dutyBytes v)
  | .discard => .frame (List.replicate (2 * cfg.n + 1) 0)
  | .read => .service true
  | .noread => .service false
  | .cancel => .control false .running true
  | .reset => .control true .running false

/-- The `k` bytes of a number whose bit 0 is the least significant bit of the first byte. -/
def wordBytes (k w : Nat) : List Byte :=
  (List.range k).map fun j => BitVec.ofNat 8 (w / 256 ^ j)

/-- The operation the decoder reads from a write frame of `nbits / 8` bytes with the bits `w`, under the configuration that
`State.reset` carries (notes/assumptions/6.md). A frame's length is its opcode (R81), so no byte is added to it. -/
def decodeTableWord (nbits w : Nat) : Option Instr :=
  if nbits % 8 = 0 then
    match decode Config.board (.frame (wordBytes (nbits / 8) w)) with
    | .instr i => some i
    | .rejected _ => none
  else none

end Sys2Proof
end

