-- ==== Sys2Proof/Machine/State.lean ====
section
/-! DEFINITION. The machine's state (spec/10_state.md R20 to R28), the reasons a step can stop, and the state after reset
(spec/70_reset_and_hazards.md R230). INVENTORY.md lists every field with its rule. -/

namespace Sys2Proof.Machine

/-- The faults of the block: none. "No operation of the block raises an exception" (R200) and a model "has no other refusal
and no fault" (R215), so the type has no constructor and no step can answer a fault (safe; notes/assumptions/14.md). -/
inductive Fault where
deriving DecidableEq, Repr

/-- Why the model gives a step no meaning. -/
inductive Refusal where
  /-- Raised by no arm of this model: every operation has its meaning. Safe. -/
  | notModelled (mnemonic : String)
  /-- Raised by `step` alone: the configuration is outside `1 <= N <= 127` (R8, R215). Safe: the spec demands it. -/
  | badConfiguration
deriving DecidableEq, Repr

/-- The inputs of one poll cycle (R28). -/
structure CycleInput where
  /-- The tokens the transceiver delivers during the cycle's drain, in arrival order. -/
  rx : List Token
  /-- A read request is pending at the read service. -/
  rd : Bool
  /-- The cooperative cancellation input. -/
  cancel : Bool
  /-- Reset. -/
  rst : Bool
deriving DecidableEq, Repr

/-- The cycle in which nothing arrives: the script line `NOP` (R91). -/
def CycleInput.quiet : CycleInput := { rx := [], rd := false, cancel := false, rst := false }

/-- The cycle with the tokens `rx` and the read level `rd`, neither control input set: the script line `RAW` (R91). -/
def CycleInput.plain (rx : List Token) (rd : Bool) : CycleInput :=
  { rx := rx, rd := rd, cancel := false, rst := false }

/-- Everything the spec gives the machine (R20), its latched outputs (R28, R106), its configuration (R8 to R11) and the
environment's coming inputs. -/
structure State where
  /-- `N`, `DEVICE_ID`, `I2C_ADDR`, `FRAMING`: written by no operation (R20; notes/assumptions/1.md). -/
  cfg : Config
  /-- The read/write pointer (R21). -/
  ptr : Byte
  /-- The duty register file `duty[0..N-1]` (R22); `duty_out` is this list (R105). -/
  duty : List Duty
  /-- The frame storage `fbuf[0..2N-1]` (R23). -/
  fbuf : List Byte
  /-- The frame length counter, saturating at `2N+1` (R24). -/
  flen : Nat
  /-- The run state (R27). -/
  run : RunState
  /-- The byte handed to the transceiver in the last cycle, or none (R28). -/
  tx : Option Byte
  /-- `duty_we` of the last cycle (R28). -/
  dutyWe : Bool
  /-- The `set_duty(i, value)` calls of the last cycle, in order (R106; notes/assumptions/9.md). -/
  driverCalls : List (Nat × Duty)
  /-- The MODEL's own field: the inputs of the coming cycles, the next one first (notes/assumptions/3.md). -/
  inputs : List CycleInput
deriving DecidableEq, Repr

/-- The reset state of a block configured as `cfg` (R230). `fbuf` is unspecified there (R23); 0 stands in
(DESIGN CHOICE, notes/assumptions/7.md). -/
def State.ofConfig (cfg : Config) : State where
  cfg := cfg
  ptr := 0
  duty := List.replicate cfg.n 0
  fbuf := List.replicate (2 * cfg.n) 0
  flen := 0
  run := .running
  tx := none
  dutyWe := false
  driverCalls := []
  inputs := []

/-- The machine right after reset (R230), with the configuration of notes/assumptions/2.md. -/
def State.reset : State := State.ofConfig Config.board

end Sys2Proof.Machine
end

