-- ==== Sys2Proof/Machine/Ops.lean ====
section
/-! DEFINITION. The named operations over the state: the register map (spec/20_memory.md R50 to R53), the Channel Bank's
primitives (spec/40_channel_bank.md R101, R103), the frame storage (spec/41_framer.md R120, R128), the outputs of a cycle
(spec/10_state.md R28) and sequencing. The block takes no exception and returns from none (spec/60_exceptions.md R200), so
there is no operation for either. -/

namespace Sys2Proof.Machine

/-- `L = 2 + 2*N`, the register-map length (R12). -/
def mapLength (s : State) : Nat := 2 + 2 * s.cfg.n

/-- `ReadDutyBytes()` (R103): the duties as bytes, high byte first, in channel order; it has no side effect. -/
def readDutyBytes (s : State) : List Byte := dutyBytes s.duty

/-- The register map as the sequence `[DEVICE_ID, N] ++ DutyByteBuffer` (R51, R160). -/
def registerMap (s : State) : List Byte :=
  s.cfg.deviceId :: BitVec.ofNat 8 s.cfg.n :: readDutyBytes s

/-- `MapRead(a)` (R51, R52): the read of one byte of the register map, computed from the duty file as it stands (R53). -/
def mapRead (s : State) (a : Byte) : Byte :=
  if a.toNat = 0 then s.cfg.deviceId
  else if a.toNat = 1 then BitVec.ofNat 8 s.cfg.n
  else if a.toNat < mapLength s then
    if (a.toNat - 2) % 2 = 0 then dutyHi (s.duty.getD ((a.toNat - 2) / 2) 0)
    else dutyLo (s.duty.getD ((a.toNat - 2) / 2) 0)
  else 0

/-- `duty_out[0..N-1]`: the duty file, driven continuously (R28, R105). -/
def dutyOut (s : State) : List Duty := s.duty

/-- `ptr <- p`. -/
def setPtr (p : Byte) (s : State) : State := { s with ptr := p }

/-- `Send(v)`: the byte of this cycle on `tx` (R15). -/
def send (v : Byte) (s : State) : State := { s with tx := some v }

/-- `SetAll(v[0..N-1])` (R101, R102): every duty register in one step, `duty_we` set even where no value changes, and one
`set_duty(i, duty[i])` call per channel in increasing `i` (R106). -/
def setAll (v : List Duty) (s : State) : State :=
  { s with
    duty := v
    dutyWe := true
    driverCalls := s.driverCalls ++ (List.range v.length).zip v }

/-- The frame takes the byte `b`: stored while fewer than `2N` bytes are held, counted up to `2N+1` (R120). -/
def appendByte (b : Byte) (s : State) : State :=
  { s with
    fbuf := if s.flen < 2 * s.cfg.n then s.fbuf.set s.flen b else s.fbuf
    flen := min (s.flen + 1) (2 * s.cfg.n + 1) }

/-- `flen <- 0` (R128). -/
def clearFrame (s : State) : State := { s with flen := 0 }

/-- `run <- r` (R27). -/
def setRun (r : RunState) (s : State) : State := { s with run := r }

/-- Every duty register to 0 (R231), which is no SetAll: `duty_we` stays and no call is made. -/
def zeroDuty (s : State) : State := { s with duty := List.replicate s.cfg.n 0 }

/-- The outputs of a cycle start empty (R180). -/
def clearOutputs (s : State) : State :=
  { s with tx := none, dutyWe := false, driverCalls := [] }

/-- The inputs of the cycle about to run; where none are listed, nothing arrives (DESIGN CHOICE, notes/assumptions/3.md). -/
def nextInput (s : State) : CycleInput := s.inputs.headD CycleInput.quiet

/-- The cycle's inputs are taken, sampled or not (notes/assumptions/13.md). -/
def popInput (s : State) : State := { s with inputs := s.inputs.tail }

/-- Go on with `f` where the outcome is a next state. -/
def andThen (o : Host.Outcome State Fault Refusal) (f : State → Host.Outcome State Fault Refusal) :
    Host.Outcome State Fault Refusal :=
  match o with
  | .next s => f s
  | .fault r => .fault r
  | .refused r => .refused r

end Sys2Proof.Machine
end

