-- ==== Sys2Proof/Machine/Control.lean ====
section
/-! DEFINITION. CANCEL (spec/44_poll_cycle.md R184) and RESET (spec/70_reset_and_hazards.md R231). -/

namespace Sys2Proof.Machine

/-- CANCEL (R184): stop, and drop an open frame undispatched; pointer and duties stay. -/
def execCancel (s : State) : Host.Outcome State Fault Refusal :=
  .next (clearFrame (setRun .stopped s))

/-- RESET (R231): pointer 0, every duty 0, no frame, RUNNING. The bytes of `fbuf` are not written
(notes/assumptions/7.md). -/
def execReset (s : State) : Host.Outcome State Fault Refusal :=
  .next (setRun .running (clearFrame (zeroDuty (setPtr 0 s))))

end Sys2Proof.Machine
end

