-- ==== Sys2Proof/Machine/Framer.lean ====
section
/-! DEFINITION. COLLECT (spec/41_framer.md R120). -/

namespace Sys2Proof.Machine

/-- COLLECT (R120): store the byte if there is room, count it, dispatch nothing. -/
def execCollect (b : Byte) (s : State) : Host.Outcome State Fault Refusal :=
  .next (appendByte b s)

end Sys2Proof.Machine
end

