-- ==== Sys2Proof/Machine/ReadService.lean ====
section
/-! DEFINITION. The read service (spec/43_read_service.md R160, R161). -/

namespace Sys2Proof.Machine

/-- The byte a READ serves: the map byte at the pointer, 0 beyond the map's end (R160, R52). -/
def readValue (s : State) : Byte :=
  if s.ptr.toNat < mapLength s then mapRead s s.ptr else 0

/-- READ (R160): send one byte and advance the pointer modulo 256, whatever address it read. -/
def execRead (s : State) : Host.Outcome State Fault Refusal :=
  .next (setPtr (s.ptr + 1) (send (readValue s) s))

/-- NOREAD (R161): no byte this cycle; nothing changes. -/
def execNoread (s : State) : Host.Outcome State Fault Refusal :=
  .next s

end Sys2Proof.Machine
end

