-- ==== Sys2Proof/Machine/WriteDispatch.lean ====
section
/-! DEFINITION. The three operations a finished frame selects (spec/42_write_dispatch.md R140 to R142). DISPATCH, which
chooses among them and clears the frame after them, is in Machine/Cycle.lean. -/

namespace Sys2Proof.Machine

/-- SETPTR (R140): load the pointer, with no range check; nothing else. -/
def execSetptr (p : Byte) (s : State) : Host.Outcome State Fault Refusal :=
  .next (setPtr p s)

/-- WRDUTY (R141): replace every duty in one step; the pointer is neither read nor written. -/
def execWrduty (v : List Duty) (s : State) : Host.Outcome State Fault Refusal :=
  .next (setAll v s)

/-- DISCARD (R142): a deliberate no-op. -/
def execDiscard (s : State) : Host.Outcome State Fault Refusal :=
  .next s

end Sys2Proof.Machine
end

