-- ==== Sys2Proof/Machine/Dispatch.lean ====
section
/-! DEFINITION. exec: one arm per operation of spec/opcode_table.json. -/

namespace Sys2Proof.Machine

def exec (i : Instr) (s : State) : Host.Outcome State Fault Refusal :=
  match i with
  | .collect b => Sys2Proof.Machine.execCollect b s
  | .setptr p => Sys2Proof.Machine.execSetptr p s
  | .wrduty v => Sys2Proof.Machine.execWrduty v s
  | .discard => Sys2Proof.Machine.execDiscard s
  | .read => Sys2Proof.Machine.execRead s
  | .noread => Sys2Proof.Machine.execNoread s
  | .cancel => Sys2Proof.Machine.execCancel s
  | .reset => Sys2Proof.Machine.execReset s

end Sys2Proof.Machine
end

