-- ==== Sys2Proof/Machine/Cycle.lean ====
section
/-! DEFINITION. The poll cycle (spec/44_poll_cycle.md R180), DISPATCH (spec/41_framer.md R127) and the dispatch points
(R121, R123). Every operation of the cycle is an operation the decoder selected, run by exec. -/

namespace Sys2Proof.Machine

/-- DISPATCH (R127, R128): run the operation the frame's length selects, then clear the frame whatever the outcome. -/
def dispatch (s : State) : Host.Outcome State Fault Refusal :=
  andThen (exec (decodeFrame s.cfg.n s.flen s.fbuf) s) fun t => .next (clearFrame t)

/-- One token of the drain (R180 (a)): `DATA` is a COLLECT; `END` is a dispatch point in EOT (R123), ignored in DRAIN
(R125). -/
def takeToken (tok : Token) (s : State) : Host.Outcome State Fault Refusal :=
  match decodeToken tok with
  | some i => exec i s
  | none => if s.cfg.framing = .eot then dispatch s else .next s

/-- The drain (R180 (a)): every token in arrival order. -/
def drain : List Token → State → Host.Outcome State Fault Refusal
  | [], s => .next s
  | tok :: rest, s => andThen (takeToken tok s) fun t => drain rest t

/-- The end of the drain (R180 (b)): a dispatch point in DRAIN if a byte was collected (R121), none in EOT (R124). -/
def endOfDrain (s : State) : Host.Outcome State Fault Refusal :=
  if s.cfg.framing = .drain ∧ 0 < s.flen then dispatch s else .next s

/-- The read service (R180 (c)). -/
def service (rd : Bool) (s : State) : Host.Outcome State Fault Refusal :=
  exec (decodeService rd) s

/-- Parts (a) to (c) of a RUNNING cycle with no control input set (R180). -/
def activeCycle (inp : CycleInput) (s : State) : Host.Outcome State Fault Refusal :=
  andThen (drain inp.rx s) fun t => andThen (endOfDrain t) fun u => service inp.rd u

/-- One poll cycle (R180): the outputs start empty; then RESET, the STOPPED test, CANCEL and the drain in the order of
R205. -/
def cycle (inp : CycleInput) (s : State) : Host.Outcome State Fault Refusal :=
  match decodeControl inp.rst s.run inp.cancel with
  | some i => exec i (clearOutputs s)
  | none =>
    if s.run = .stopped then .next (clearOutputs s)
    else activeCycle inp (clearOutputs s)

/-- One step of a configured block: the cycle over the next listed inputs. A configuration outside R8 is refused (R215). -/
def pollCycle (s : State) : Host.Outcome State Fault Refusal :=
  if s.cfg.Valid then cycle (nextInput s) (popInput s) else .refused .badConfiguration

end Sys2Proof.Machine
end

