-- ==== Sys2Proof/Machine/Transceiver.lean ====
section
/-! DEFINITION. The transceiver's side of the interface (spec/60_exceptions.md R208), as far as the block's inputs need it:
which tokens the write transactions on the bus become. The transceiver itself is outside the block (R6 (a));
notes/assumptions/17.md says which obligations are written here. -/

namespace Sys2Proof.Machine

/-- One write transaction on the bus: the 7-bit address it names and its data bytes. -/
structure BusWrite where
  addr : BusAddr
  bytes : List Byte
deriving DecidableEq, Repr

/-- The tokens of one write transaction to this device: its bytes in bus order (R208 T1), and in EOT the `END` after the
last (R208 T4). -/
def writeTokens (f : Framing) (bytes : List Byte) : List Token :=
  bytes.map Token.data ++ (if f = .eot then [Token.endMark] else [])

/-- The tokens the transceiver delivers for a sequence of write transactions: those of the ones addressed to `I2C_ADDR` and
no other (R54, R208 T1). DESIGN CHOICE, unsafe: a transaction to another device yields no `END` either, the model's reading of
T4 (notes/assumptions/17.md). -/
def deliver (cfg : Config) (writes : List BusWrite) : List Token :=
  (writes.filter fun w => w.addr == cfg.i2cAddr).flatMap fun w => writeTokens cfg.framing w.bytes

/-- `s` with one write transaction of the given bytes as the next cycle's input, the block RUNNING and no frame open. -/
def presentFrame (s : State) (bytes : List Byte) : State :=
  { s with
    run := .running
    flen := 0
    inputs := CycleInput.plain (writeTokens s.cfg.framing bytes) false :: s.inputs }

end Sys2Proof.Machine
end

