-- ==== Sys2Proof/Machine/Step.lean ====
section
/-! DEFINITION. The step: one poll cycle (spec/00_scope.md R16, spec/44_poll_cycle.md R180). -/

namespace Sys2Proof.Machine

/-- One step is one poll cycle (R16). -/
def step (s : State) : Host.Outcome State Fault Refusal := pollCycle s

/-- `s` with a write frame of `nbits / 8` bytes, its bits `w`, delivered whole in the next cycle (notes/assumptions/6.md). -/
def State.withFetchWord (s : State) (nbits w : Nat) : State := presentFrame s (wordBytes (nbits / 8) w)

end Sys2Proof.Machine
end

