-- ==== Sys2Proof/Machine/Flags.lean ====
section
/-! DEFINITION. The block has no status flags, condition codes or predicates (spec/10_state.md R29). What comes nearest, the
framer state, is a function of `flen` and is given here (R25). -/

namespace Sys2Proof.Machine

/-- The framer's two states (R25). -/
inductive FramerState where
  | idle
  | collecting
deriving DecidableEq, Repr

/-- IDLE when `flen = 0`, COLLECTING when `flen > 0` (R25). -/
def framerState (s : State) : FramerState := if s.flen = 0 then .idle else .collecting

end Sys2Proof.Machine
end

