-- ==== Sys2Proof/Machine/Script.lean ====
section
/-! DEFINITION. The script syntax (spec/30_encoding.md R91) and its macros (R92): what each line puts on the block's inputs.
A way to write `State.inputs`; the machine does not read it. -/

namespace Sys2Proof.Machine

/-- A line of a script (R91) or a macro (R92). -/
inductive ScriptLine where
  /-- `W b0 ... bk-1`. -/
  | write (bytes : List Byte)
  /-- `WR b0 ... bk-1`. -/
  | writeRead (bytes : List Byte)
  /-- `R*k`; `R` is `R*1`. -/
  | readTimes (k : Nat)
  /-- `NOP`. -/
  | nop
  /-- `RAW [t0, t1, ...] rd=<0 or 1>`. -/
  | raw (rx : List Token) (rd : Bool)
  /-- `CANCEL`: `rx` and `rd` are not sampled. -/
  | cancel
  /-- `RESET`: nothing else is sampled. -/
  | reset
  /-- The macro `SETPTR p`. -/
  | setptr (p : Byte)
  /-- The macro `SETDUTY d0 ... dN-1`. -/
  | setduty (v : List Duty)
  /-- The macro `RSEQ p k`. -/
  | rseq (p : Byte) (k : Nat)
deriving DecidableEq, Repr

/-- The cycle of a `W` line (R91). -/
def writeCycle (f : Framing) (bytes : List Byte) : CycleInput :=
  CycleInput.plain (writeTokens f bytes) false

/-- The cycle of an `R` line (R91). -/
def readCycle : CycleInput := CycleInput.plain [] true

/-- The inputs of the cycles a line stands for (R91, R92). -/
def ScriptLine.cycles (f : Framing) : ScriptLine → List CycleInput
  | .write bytes => [writeCycle f bytes]
  | .writeRead bytes => [CycleInput.plain (writeTokens f bytes) true]
  | .readTimes k => List.replicate k readCycle
  | .nop => [CycleInput.quiet]
  | .raw rx rd => [CycleInput.plain rx rd]
  | .cancel => [{ rx := [], rd := false, cancel := true, rst := false }]
  | .reset => [{ rx := [], rd := false, cancel := false, rst := true }]
  | .setptr p => [writeCycle f [p]]
  | .setduty v => [writeCycle f (dutyBytes v)]
  | .rseq p k => writeCycle f [p] :: List.replicate k readCycle

/-- The inputs of a whole script, one cycle a line after expansion (R91). -/
def assemble (f : Framing) (lines : List ScriptLine) : List CycleInput :=
  lines.flatMap (ScriptLine.cycles f)

end Sys2Proof.Machine
end

