-- ==== Sys2Proof/Safety.lean ====
section
/-! DEFINITION. What claims are stated in: the observation of a cycle and of a run (spec/44_poll_cycle.md R187), the
invariant of the block's state, and which parts of it nothing can observe (spec/10_state.md R23). -/

namespace Sys2Proof.Machine

/-- What a model observes of a cycle (R187). -/
structure Obs where
  tx : Option Byte
  dutyWe : Bool
  dutyOut : List Duty
deriving DecidableEq, Repr

/-- The observation at the end of a cycle (R187). -/
def observe (s : State) : Obs := { tx := s.tx, dutyWe := s.dutyWe, dutyOut := dutyOut s }

/-- `k` steps, stopping at the first refusal. -/
def stepN : Nat → State → Host.Outcome State Fault Refusal
  | 0, s => .next s
  | k + 1, s => andThen (step s) fun t => stepN k t

/-- The observation of a run of `k` cycles: one triple per cycle (R187). -/
def trace : Nat → State → List Obs
  | 0, _ => []
  | k + 1, s =>
    match step s with
    | .next t => observe t :: trace k t
    | .fault _ => []
    | .refused _ => []

/-- The states of a configured block: `N` duty registers (R22, R100), `2N` bytes of frame storage (R23), a length counter
up to `2N+1` (R24), and in DRAIN no frame open at a cycle boundary (R122). -/
structure State.Inv (s : State) : Prop where
  config : s.cfg.Valid
  dutyCount : s.duty.length = s.cfg.n
  storage : s.fbuf.length = 2 * s.cfg.n
  counter : s.flen ≤ 2 * s.cfg.n + 1
  drainIdle : s.cfg.framing = .drain → s.flen = 0

/-- A RUNNING block with no frame open, about to take the inputs `inp`. -/
structure State.ReadyFor (s : State) (inp : CycleInput) : Prop where
  inv : s.Inv
  running : s.run = .running
  idle : s.flen = 0
  next : nextInput s = inp

/-- `s` and `t` differ at most in the bytes of `fbuf` beyond the first `min(flen, 2N)`, which nothing reads (R23). -/
structure State.AgreeOnFrame (s t : State) : Prop where
  rest : { s with fbuf := t.fbuf } = t
  storage : s.fbuf.length = t.fbuf.length
  frame : ∀ j, j < min s.flen (2 * s.cfg.n) → s.fbuf[j]? = t.fbuf[j]?

/-- The state a cycle starts its operations from: the inputs taken, the outputs empty (R180). -/
def cycleStart (s : State) : State := clearOutputs (popInput s)

/-- The frame storage after the bytes of one frame are collected from an empty frame: the first `2N` of them from index 0,
the rest of the storage as it was (R23, R120). -/
def storedFrame (n : Nat) (bytes fbuf : List Byte) : List Byte :=
  bytes.take (2 * n) ++ fbuf.drop (bytes.take (2 * n)).length

/-- The state in which DISPATCH meets a whole frame collected from an empty one (R120). -/
def withFrame (bytes : List Byte) (s : State) : State :=
  { s with fbuf := storedFrame s.cfg.n bytes s.fbuf, flen := frameCount s.cfg.n bytes.length }

/-- The data bytes of a token list, in order. -/
def dataBytes (rx : List Token) : List Byte :=
  rx.filterMap fun tok =>
    match tok with
    | .data b => some b
    | .endMark => none

/-- The frames `fs`, each collected whole and dispatched, one after the other (R123). -/
def dispatchAll : List (List Byte) → State → Host.Outcome State Fault Refusal
  | [], s => .next s
  | f :: fs, s => andThen (dispatch (withFrame f s)) fun t => dispatchAll fs t

end Sys2Proof.Machine
end

