-- ==== Sys2Proof/Reference.lean ====
section
/-! DEFINITION. The block as its source describes it, with an unbounded frame and the register map as a sequence
(spec/41_framer.md R126, spec/43_read_service.md R160): the machine the bounded one is compared with. Written apart from
Machine/: it shares no operation with it but the two-byte concatenation and the byte view of the duties. -/

namespace Sys2Proof.Reference

open Sys2Proof.Machine (CycleInput State)

/-- The reference state: the frame is the whole byte sequence collected since the last dispatch. -/
structure Ref where
  cfg : Config
  ptr : Byte
  duty : List Duty
  frame : List Byte
  run : RunState
  tx : Option Byte
  dutyWe : Bool
  driverCalls : List (Nat × Duty)
  inputs : List CycleInput
deriving DecidableEq, Repr

/-- The reference at startup (R230), with the coming inputs `inputs`. -/
def Ref.start (cfg : Config) (inputs : List CycleInput) : Ref where
  cfg := cfg
  ptr := 0
  duty := List.replicate cfg.n 0
  frame := []
  run := .running
  tx := none
  dutyWe := false
  driverCalls := []
  inputs := inputs

/-- Big-endian 16-bit pairs of a byte sequence (R83). -/
def pairs : List Byte → List Duty
  | hi :: lo :: rest => dutyOf hi lo :: pairs rest
  | _ => []

/-- The dispatch rule on the full sequence: length 1, length `2N`, any other (R85, R126), the frame then cleared. -/
def dispatch (a : Ref) : Ref :=
  if a.frame.length = 1 then { a with ptr := a.frame.headD 0, frame := [] }
  else if a.frame.length = 2 * a.cfg.n then
    { a with
      duty := pairs a.frame
      dutyWe := true
      driverCalls := a.driverCalls ++ (List.range a.cfg.n).zip (pairs a.frame)
      frame := [] }
  else { a with frame := [] }

/-- One token of the drain (R180). -/
def takeToken (a : Ref) : Token → Ref
  | .data b => { a with frame := a.frame ++ [b] }
  | .endMark => if a.cfg.framing = .eot then dispatch a else a

/-- The read service over the sequence `[DEVICE_ID, N] ++ duty bytes` (R160). -/
def service (rd : Bool) (a : Ref) : Ref :=
  if rd then
    { a with
      tx := some ((a.cfg.deviceId :: BitVec.ofNat 8 a.cfg.n :: dutyBytes a.duty).getD a.ptr.toNat 0)
      ptr := BitVec.ofNat 8 ((a.ptr.toNat + 1) % 256) }
  else a

/-- The end of the drain in DRAIN (R121). -/
def endOfDrain (a : Ref) : Ref :=
  if a.cfg.framing = .drain ∧ a.frame ≠ [] then dispatch a else a

/-- One poll cycle over the next inputs (R180). -/
def step (a : Ref) : Ref :=
  let inp := a.inputs.headD CycleInput.quiet
  let b : Ref := { a with inputs := a.inputs.tail, tx := none, dutyWe := false, driverCalls := [] }
  if inp.rst then
    { b with ptr := 0, duty := List.replicate b.cfg.n 0, frame := [], run := .running }
  else if b.run = .stopped then b
  else if inp.cancel then { b with run := .stopped, frame := [] }
  else service inp.rd (endOfDrain (inp.rx.foldl takeToken b))

/-- The bounded block `s` stands for the reference state `a`: equal in everything but the frame, of which `s` holds the
saturated length and the first `2N` bytes (R126). -/
structure Represents (s : State) (a : Ref) : Prop where
  cfg : s.cfg = a.cfg
  ptr : s.ptr = a.ptr
  duty : s.duty = a.duty
  run : s.run = a.run
  tx : s.tx = a.tx
  dutyWe : s.dutyWe = a.dutyWe
  driverCalls : s.driverCalls = a.driverCalls
  inputs : s.inputs = a.inputs
  length : s.flen = frameCount a.cfg.n a.frame.length
  bytes : s.fbuf.take a.frame.length = a.frame.take (2 * a.cfg.n)

end Sys2Proof.Reference
end

