-- ==== Sys2Proof/Certificates/Slice0/Obligations.lean ====
section
/-! DEFINITION. The statements for the provers. Each docstring names the rule of spec/ it formalises, or says that it is
derived. They hold for every state that meets their hypotheses, so for every configuration of R8 to R11. -/

open Sys2Proof Sys2Proof.Machine

/-! ### The eight operations: what each does, where it completes, and what it leaves alone -/

/-- R120: COLLECT is each `DATA` token of the drain of a RUNNING cycle, in order and in both modes; it stores the byte while
there is room, counts it up to `2N+1`, and does nothing else. -/
def Obligations.CollectStoresAndCounts : Prop :=
  ∀ (b : Byte) (s : State),
    exec (.collect b) s = .next { s with
        fbuf := if s.flen < 2 * s.cfg.n then s.fbuf.set s.flen b else s.fbuf
        flen := min (s.flen + 1) (2 * s.cfg.n + 1) } ∧
    (∀ rest, drain (.data b :: rest) s = andThen (exec (.collect b) s) (drain rest)) ∧
    (∀ inp : CycleInput, s.run = .running → inp.rst = false → inp.cancel = false →
      cycle inp s = andThen (drain inp.rx (clearOutputs s)) fun t =>
        andThen (endOfDrain t) (service inp.rd))

/-- Derived from R23 and R120: in a block's state a COLLECT with room puts its byte at index `flen` and keeps every other
stored byte; with no room it keeps them all. -/
def Obligations.CollectWritesOneStoredByte : Prop :=
  ∀ (b : Byte) (s : State), s.Inv →
    ∃ t, exec (.collect b) s = .next t ∧
      (s.flen < 2 * s.cfg.n → t.fbuf[s.flen]? = some b) ∧
      (∀ j, j ≠ s.flen ∨ 2 * s.cfg.n ≤ s.flen → t.fbuf[j]? = s.fbuf[j]?) ∧
      t.fbuf.length = 2 * s.cfg.n

/-- R140: SETPTR loads the pointer with the frame byte and writes nothing else; a pointer beyond the map reads 0, and after
255 the next two READs use the addresses 255 and 0. -/
def Obligations.SetptrLoadsPointer : Prop :=
  ∀ (p : Byte) (s : State),
    (∀ b, s.fbuf[0]? = some b → decodeFrame s.cfg.n 1 s.fbuf = .setptr b) ∧
    exec (.setptr p) s = .next { s with ptr := p } ∧
    (2 + 2 * s.cfg.n ≤ p.toNat →
      exec .read { s with ptr := p } = .next { s with ptr := p + 1, tx := some 0 }) ∧
    exec .read { s with ptr := 255 } = .next { s with ptr := 0, tx := some (mapRead s 255) } ∧
    exec .read { s with ptr := 0 } = .next { s with ptr := 1, tx := some (mapRead s 0) }

/-- Derived from R141, R101, R106: from a full storage of `2N` bytes WRDUTY's operands are the `N` values
`fbuf[2i] * 256 + fbuf[2i+1]`; it replaces the whole duty file in one step, sets `duty_we`, adds one driver call per channel
in index order, and leaves everything else, the pointer among it. That State keeps the calls is the model's choice
(notes/assumptions/9.md). -/
def Obligations.WrdutyReplacesBank : Prop :=
  (∀ (v : List Duty) (s : State), v.length = s.cfg.n →
    exec (.wrduty v) s = .next { s with
        duty := v
        dutyWe := true
        driverCalls := s.driverCalls ++ (List.range s.cfg.n).zip v }) ∧
  (∀ (n : Nat) (fbuf : List Byte), fbuf.length = 2 * n →
    ∃ v, decodeFrame n (2 * n) fbuf = .wrduty v ∧ v.length = n ∧
      ∀ i, i < n → ∃ d, v[i]? = some d ∧
        d.toNat = (fbuf.getD (2 * i) 0).toNat % 256 * 256 + (fbuf.getD (2 * i + 1) 0).toNat % 256)

/-- R142: every frame length other than 1 and `2N` selects DISCARD, which changes nothing; DISPATCH then clears the
frame. -/
def Obligations.DiscardChangesNothing : Prop :=
  ∀ s : State,
    exec .discard s = .next s ∧
    (s.flen ≠ 1 → s.flen ≠ 2 * s.cfg.n →
      decodeFrame s.cfg.n s.flen s.fbuf = .discard ∧ dispatch s = .next { s with flen := 0 })

/-- R160: READ sends the map byte at the pointer, 0 from `L` on, and advances the pointer modulo 256; it writes nothing
else. The last clauses are the corner cases `ptr = L-1` and, for `N = 127`, `ptr = 255`. -/
def Obligations.ReadServesMapByte : Prop :=
  ∀ s : State,
    decodeService true = .read ∧
    exec .read s = .next { s with
        tx := some (if s.ptr.toNat < 2 + 2 * s.cfg.n then mapRead s s.ptr else 0)
        ptr := BitVec.ofNat 8 ((s.ptr.toNat + 1) % 256) } ∧
    (s.Inv → s.ptr.toNat = 2 * s.cfg.n + 1 →
      mapRead s s.ptr = dutyLo (s.duty.getD (s.cfg.n - 1) 0)) ∧
    (s.Inv → s.ptr = 255 → s.cfg.n = 127 →
      exec .read s = .next { s with tx := some (dutyLo (s.duty.getD 126 0)), ptr := 0 }) ∧
    (s.Inv → s.ptr = 255 → s.cfg.n ≠ 127 → exec .read s = .next { s with tx := some 0, ptr := 0 })

/-- R161: NOREAD is selected by `rd = 0` and changes nothing; a RUNNING cycle without a read sends no byte. -/
def Obligations.NoreadSendsNothing : Prop :=
  ∀ s : State,
    decodeService false = .noread ∧
    exec .noread s = .next s ∧
    (s.cfg.Valid → s.run = .running → (nextInput s).rst = false → (nextInput s).cancel = false →
      (nextInput s).rd = false → ∃ t, step s = .next t ∧ t.tx = none)

/-- R184: CANCEL stops the block and drops an open frame; pointer and duties stay, no token is drained, no read served. In a
STOPPED cycle `cancel` does nothing. -/
def Obligations.CancelStopsAndDropsFrame : Prop :=
  ∀ s : State,
    exec .cancel s = .next { s with run := .stopped, flen := 0 } ∧
    (s.cfg.Valid → (nextInput s).rst = false → (nextInput s).cancel = true →
      (s.run = .running →
        step s = .next { s with
          run := .stopped, flen := 0, tx := none, dutyWe := false, driverCalls := [], inputs := s.inputs.tail }) ∧
      (s.run = .stopped →
        step s = .next { s with
          tx := none, dutyWe := false, driverCalls := [], inputs := s.inputs.tail }))

/-- R231: RESET gives pointer 0, every duty 0, no frame, RUNNING, at any cycle boundary and whatever else is asserted;
`duty_we` is 0 and no byte is sent in its cycle. Of `fbuf` the spec gives no value here (R230) and nothing is said. -/
def Obligations.ResetRestoresStartup : Prop :=
  ∀ s : State,
    (∃ t, exec .reset s = .next t ∧ t.ptr = 0 ∧ t.duty = List.replicate s.cfg.n 0 ∧ t.flen = 0 ∧ t.run = .running ∧
      t.cfg = s.cfg ∧ t.tx = s.tx ∧ t.dutyWe = s.dutyWe ∧ t.driverCalls = s.driverCalls ∧ t.inputs = s.inputs) ∧
    (s.cfg.Valid → (nextInput s).rst = true →
      ∃ t, step s = .next t ∧ t.cfg = s.cfg ∧ t.ptr = 0 ∧ t.duty = List.replicate s.cfg.n 0 ∧ t.flen = 0 ∧
        t.run = .running ∧ t.tx = none ∧ t.dutyWe = false ∧ dutyOut t = List.replicate s.cfg.n 0)

/-! ### The register map and the duty bytes -/

/-- R51: the register map, address by address. -/
def Obligations.MapReadFollowsLayout : Prop :=
  ∀ s : State, s.Inv →
    mapRead s 0 = s.cfg.deviceId ∧
    (mapRead s 1).toNat = s.cfg.n ∧
    (∀ i, i < s.cfg.n → ∃ d, s.duty[i]? = some d ∧
      mapRead s (BitVec.ofNat 8 (2 + 2 * i)) = d.extractLsb' 8 8 ∧
      mapRead s (BitVec.ofNat 8 (3 + 2 * i)) = d.extractLsb' 0 8) ∧
    (∀ a : Byte, 2 + 2 * s.cfg.n ≤ a.toNat → mapRead s a = 0)

/-- R52: a READ of an unmapped address sends 0, is no error and advances the pointer. -/
def Obligations.UnmappedReadGivesZero : Prop :=
  ∀ s : State, 2 + 2 * s.cfg.n ≤ s.ptr.toNat →
    mapRead s s.ptr = 0 ∧ exec .read s = .next { s with tx := some 0, ptr := s.ptr + 1 }

/-- Derived from R51 and R160: the address test of `MapRead` and the sequence `[DEVICE_ID, N] ++ duty bytes` of length
`L` give the same byte at every address. -/
def Obligations.MapReadIsSequenceRead : Prop :=
  ∀ s : State, s.Inv →
    (registerMap s).length = 2 + 2 * s.cfg.n ∧
    ∀ a : Byte, mapRead s a = (registerMap s).getD a.toNat 0

/-- Derived from R22, R87 and 90_conflicts.md C5: the byte view of the duty file loses nothing, in either direction. -/
def Obligations.DutyByteViewBijective : Prop :=
  (∀ v : List Duty, dutyOperands v.length (dutyBytes v) = v) ∧
  (∀ (n : Nat) (bytes : List Byte), bytes.length = 2 * n → dutyBytes (dutyOperands n bytes) = bytes)

/-- R83: a `2N`-byte frame selects WRDUTY whatever its bytes are, and frame byte `k` is then at map address `k + 2`. -/
def Obligations.DutyFrameAppearsInMap : Prop :=
  ∀ (s : State) (bytes : List Byte), s.cfg.Valid → bytes.length = 2 * s.cfg.n →
    ∃ v t, decode s.cfg (.frame bytes) = .instr (.wrduty v) ∧ exec (.wrduty v) s = .next t ∧
      ∀ k, k < 2 * s.cfg.n → bytes[k]? = some (mapRead t (BitVec.ofNat 8 (k + 2)))

/-! ### Encoding -/

/-- Derived from R82, R83, R87, R90: decoding the code of a well-formed operation gives the operation back. The code of
DISCARD is the model's choice (notes/assumptions/15.md). -/
def Obligations.DecodeEncodeAgree : Prop :=
  ∀ (cfg : Config) (i : Instr), cfg.Valid → i.wellFormed cfg = true → decode cfg (encode cfg i) = .instr i

/-- Derived from R82 and R83: a SETPTR or WRDUTY frame is the only frame with its meaning. -/
def Obligations.FrameMeaningIsUnique : Prop :=
  ∀ (cfg : Config) (bytes : List Byte) (i : Instr),
    decode cfg (.frame bytes) = .instr i → i ≠ .discard → i.wellFormed cfg = true ∧ encode cfg i = .frame bytes

/-- R85: the frame's length alone selects the operation: 1 SETPTR, `2N` WRDUTY, any other DISCARD; the cases are
disjoint. -/
def Obligations.FrameLengthSelects : Prop :=
  ∀ (cfg : Config) (bytes : List Byte), cfg.Valid → (bytes ≠ [] ∨ cfg.framing = .eot) →
    2 * cfg.n ≠ 1 ∧
    (bytes.length = 1 → ∃ p, decode cfg (.frame bytes) = .instr (.setptr p)) ∧
    (bytes.length = 2 * cfg.n → ∃ v, decode cfg (.frame bytes) = .instr (.wrduty v)) ∧
    (bytes.length ≠ 1 → bytes.length ≠ 2 * cfg.n → decode cfg (.frame bytes) = .instr .discard)

/-- Sanity, derived from R82 to R90 and 95_test_vectors.md S6: a few codes written out from the spec's encodings. -/
def Obligations.SampleCodesDecode : Prop :=
  let cfg : Config := { n := 2, deviceId := 0x10, i2cAddr := 0x08, framing := .drain }
  decode cfg (.token (.data 0xAB#8)) = .instr (.collect 0xAB#8) ∧
  decode cfg (.frame [0x10#8]) = .instr (.setptr 16#8) ∧
  decode cfg (.frame [0x00#8, 0x64#8, 0xFF#8, 0xFF#8]) = .instr (.wrduty [100#16, 65535#16]) ∧
  decode cfg (.frame [0x01#8, 0x2C#8]) = .instr .discard ∧
  decode cfg (.service true) = .instr .read ∧
  decode cfg (.service false) = .instr .noread ∧
  decode cfg (.control false .running true) = .instr .cancel ∧
  decode cfg (.control true .stopped true) = .instr .reset

/-! ### A step runs the decoded operation -/

/-- Derived from R180, R205: a step whose control inputs decode to an operation is that operation, from the state with the
inputs taken and the outputs empty. -/
def Obligations.StepRunsControlOperation : Prop :=
  ∀ (s : State) (i : Instr),
    decode s.cfg (.control (nextInput s).rst s.run (nextInput s).cancel) = .instr i →
    step s = exec i (cycleStart s)

/-- Derived from R120, R127, R180: a step whose inputs are one write transaction whose bytes decode to an operation runs
exactly it, on the state in which the frame has been collected; the frame is then cleared and the read service runs. -/
def Obligations.StepRunsDecodedFrame : Prop :=
  ∀ (s : State) (bytes : List Byte) (rd : Bool) (i : Instr),
    s.ReadyFor (CycleInput.plain (writeTokens s.cfg.framing bytes) rd) →
    decode s.cfg (.frame bytes) = .instr i →
    i.wellFormed s.cfg = true ∧
    step s = andThen (exec i (withFrame bytes (cycleStart s))) fun t =>
      exec (decodeService rd) { t with flen := 0 }

/-- Derived from R180: a step whose inputs are a read-service level and no token runs the operation the level decodes to. -/
def Obligations.StepRunsReadService : Prop :=
  ∀ (s : State) (rd : Bool) (i : Instr), s.Inv → s.run = .running →
    nextInput s = CycleInput.plain [] rd →
    decode s.cfg (.service rd) = .instr i →
    step s = exec i (cycleStart s)

/-- Derived; the numbering of the bits is the model's choice (notes/assumptions/6.md): the operation the decoder reads from
a table word is the one the next step runs after `withFetchWord`. -/
def Obligations.FetchedWordRuns : Prop :=
  ∀ (s : State) (nbits w : Nat) (i : Instr), s.Inv → s.cfg = Config.board →
    decodeTableWord nbits w = some i →
    step (s.withFetchWord nbits w) =
      andThen (exec i (withFrame (wordBytes (nbits / 8) w) (cycleStart (s.withFetchWord nbits w)))) fun t =>
        exec .noread { t with flen := 0 }

/-! ### The cycle -/

/-- R180: one poll cycle, from its first test to the read service. -/
def Obligations.CycleFollowsPollOrder : Prop :=
  ∀ s : State, s.cfg.Valid →
    step s =
      (if (nextInput s).rst then exec .reset (cycleStart s)
       else if s.run = .stopped then .next (cycleStart s)
       else if (nextInput s).cancel then exec .cancel (cycleStart s)
       else andThen (drain (nextInput s).rx (cycleStart s)) fun t =>
         andThen (if t.cfg.framing = .drain ∧ 0 < t.flen then dispatch t else .next t) fun u =>
           if (nextInput s).rd then exec .read u else exec .noread u) ∧
    (∀ t : State, drain [] t = .next t ∧
      (∀ b rest, drain (.data b :: rest) t = andThen (exec (.collect b) t) (drain rest)) ∧
      (∀ rest, drain (.endMark :: rest) t =
        andThen (if t.cfg.framing = .eot then dispatch t else .next t) (drain rest)))

/-- Derived from R127, R128, R140 to R142, R101, R106: with the frame storage of R23, DISPATCH selects by the length, applies
the operation and clears the frame; for `2N` bytes that sets `duty_we` and adds the driver calls. That State keeps the calls
is the model's choice (notes/assumptions/9.md). -/
def Obligations.DispatchAppliesFrame : Prop :=
  ∀ s : State, s.cfg.Valid → s.fbuf.length = 2 * s.cfg.n →
    (s.flen = 1 → dispatch s = .next { s with ptr := s.fbuf.getD 0 0, flen := 0 }) ∧
    (s.flen = 2 * s.cfg.n → dispatch s = .next { s with
      duty := dutyOperands s.cfg.n s.fbuf
      dutyWe := true
      driverCalls := s.driverCalls ++ (List.range s.cfg.n).zip (dutyOperands s.cfg.n s.fbuf)
      flen := 0 }) ∧
    (s.flen ≠ 1 → s.flen ≠ 2 * s.cfg.n → dispatch s = .next { s with flen := 0 })

/-- R129: the framer's state transitions, row by row. -/
def Obligations.FramerTransitions : Prop :=
  ∀ s : State, s.cfg.Valid →
    (∀ b, ∃ t, exec (.collect b) s = .next t ∧ framerState t = .collecting) ∧
    (∃ t, dispatch s = .next t ∧ framerState t = .idle) ∧
    (s.cfg.framing = .drain →
      (framerState s = .collecting → endOfDrain s = dispatch s) ∧
      (framerState s = .idle → endOfDrain s = .next s) ∧
      takeToken .endMark s = .next s) ∧
    (s.cfg.framing = .eot →
      takeToken .endMark s = dispatch s ∧
      (framerState s = .idle → decodeFrame s.cfg.n s.flen s.fbuf = .discard) ∧
      endOfDrain s = .next s) ∧
    (∃ t, exec .cancel s = .next t ∧ framerState t = .idle) ∧
    (∃ t, exec .reset s = .next t ∧ framerState t = .idle)

/-- R121: in DRAIN the only dispatch point is the end of the drain, and only if a byte was collected: the frame of a cycle is
the sequence of the `DATA` bytes its drain delivered, dispatched at most once. -/
def Obligations.DrainModeDispatchesOnce : Prop :=
  ∀ s : State, s.Inv → s.run = .running → s.cfg.framing = .drain →
    (nextInput s).rst = false → (nextInput s).cancel = false →
    (dataBytes (nextInput s).rx = [] → step s = service (nextInput s).rd (cycleStart s)) ∧
    (dataBytes (nextInput s).rx ≠ [] →
      step s = andThen (dispatch (withFrame (dataBytes (nextInput s).rx) (cycleStart s)))
        (service (nextInput s).rd))

/-- R125: in DRAIN an `END` token neither dispatches nor is counted. -/
def Obligations.DrainModeIgnoresEndMarks : Prop :=
  ∀ (s : State) (inp : CycleInput), s.cfg.framing = .drain →
    takeToken .endMark s = .next s ∧
    cycle inp s = cycle { inp with rx := (dataBytes inp.rx).map Token.data } s

/-- R123: in EOT each `END` dispatches the frame collected so far, an empty one as a DISCARD that changes nothing; the tokens
after it start a new frame, so one drain dispatches the frames its `END` tokens close one by one, in token order. -/
def Obligations.EotDispatchesEachTransaction : Prop :=
  ∀ (s : State) (frames : List (List Byte)), s.Inv → s.cfg.framing = .eot →
    takeToken .endMark s = dispatch s ∧
    (s.flen = 0 → dispatch s = .next s) ∧
    (s.flen = 0 →
      drain (frames.flatMap fun f => f.map Token.data ++ [.endMark]) s = dispatchAll frames s)

/-- Derived from R54, R123, R208 (T1, T4): in EOT the drain of what the transceiver delivers for a sequence of write
transactions dispatches the ones addressed to the block, in bus order, and no other. The function `deliver` is the model's
writing of the transceiver's obligations (DESIGN CHOICE, unsafe, notes/assumptions/17.md). -/
def Obligations.EotDispatchesAddressedWrites : Prop :=
  ∀ (s : State) (writes : List BusWrite), s.Inv → s.cfg.framing = .eot → s.flen = 0 →
    drain (deliver s.cfg writes) s =
      dispatchAll ((writes.filter fun w => w.addr == s.cfg.i2cAddr).map BusWrite.bytes) s

/-- Derived from R124 and R235: in EOT a transaction split over two cycles is dispatched as a whole: the pointer, the duties
and the frame counter end as if it had come in one cycle. -/
def Obligations.EotSplitWriteIsWhole : Prop :=
  ∀ (s : State) (front back : List Byte) (rest : List CycleInput), s.Inv → s.run = .running → s.flen = 0 →
    s.cfg.framing = .eot →
    ∃ t u,
      stepN 2 { s with inputs := assemble .eot [.raw (front.map Token.data) false, .write back] ++ rest } = .next t ∧
      step { s with inputs := assemble .eot [.write (front ++ back)] ++ rest } = .next u ∧
      t.ptr = u.ptr ∧ t.duty = u.duty ∧ t.flen = u.flen ∧ observe t = observe u

/-- Derived from R63, R181, R244: a write dispatched in a cycle is seen by the READ of the same cycle. -/
def Obligations.WriteSeenBySameCycleRead : Prop :=
  ∀ (s : State) (bytes : List Byte),
    s.ReadyFor (CycleInput.plain (writeTokens s.cfg.framing bytes) true) →
    (∀ p, bytes = [p] →
      ∃ t, step s = .next t ∧ t.tx = some (mapRead s p) ∧ t.ptr = p + 1 ∧ t.duty = s.duty) ∧
    (bytes.length = 2 * s.cfg.n →
      ∃ t, step s = .next t ∧ t.duty = dutyOperands s.cfg.n bytes ∧ t.ptr = s.ptr + 1 ∧ t.dutyWe = true ∧
        (∀ k, k < 2 * s.cfg.n → s.ptr.toNat = k + 2 → t.tx = bytes[k]?))

/-- R215: a configured block answers a next state on every input; the only refusal is of a configuration, and there is no
fault. -/
def Obligations.StepTotalWhenConfigured : Prop :=
  ∀ s : State,
    (s.cfg.Valid → ∃ t, step s = .next t) ∧
    (¬s.cfg.Valid → step s = .refused .badConfiguration) ∧
    (∀ r, step s ≠ .fault r)

/-! ### Invariants and whole-machine rules -/

/-- Derived from R22, R23, R24, R100, R122: every step keeps the shape of the block's state. -/
def Obligations.StepKeepsInvariant : Prop :=
  ∀ s t : State, s.Inv → step s = .next t → t.Inv

/-- Derived from R230: the invariant holds after reset, in every valid configuration. -/
def Obligations.ResetMeetsInvariant : Prop :=
  State.reset.Inv ∧ ∀ cfg : Config, cfg.Valid → (State.ofConfig cfg).Inv

/-- R230: the reset values the spec gives (`fbuf` it leaves unspecified), in every configuration. -/
def Obligations.ResetStateValues : Prop :=
  ∀ cfg : Config,
    (State.ofConfig cfg).ptr = 0 ∧
    (State.ofConfig cfg).duty = List.replicate cfg.n 0 ∧
    (State.ofConfig cfg).flen = 0 ∧
    framerState (State.ofConfig cfg) = .idle ∧
    (State.ofConfig cfg).run = .running ∧
    observe (State.ofConfig cfg) = { tx := none, dutyWe := false, dutyOut := List.replicate cfg.n 0 } ∧
    mapRead (State.ofConfig cfg) 0 = cfg.deviceId ∧
    mapRead (State.ofConfig cfg) 1 = BitVec.ofNat 8 cfg.n ∧
    State.reset = State.ofConfig State.reset.cfg

/-- Derived from R20 and R143: no step writes the configuration, so the map bytes 0 and 1 never change. -/
def Obligations.ConfigurationNeverWritten : Prop :=
  ∀ s t : State, step s = .next t →
    t.cfg = s.cfg ∧ mapRead t 0 = mapRead s 0 ∧ mapRead t 1 = mapRead s 1

/-- R27: only CANCEL sets STOPPED, only RESET sets RUNNING; while STOPPED a cycle without RESET changes no state; the reset
value is RUNNING. -/
def Obligations.RunStateChanges : Prop :=
  (∀ s t : State, step s = .next t →
    (s.run = .running →
      (t.run = .stopped ↔ (nextInput s).rst = false ∧ (nextInput s).cancel = true)) ∧
    (s.run = .stopped → (t.run = .running ↔ (nextInput s).rst = true)) ∧
    (s.run = .stopped → (nextInput s).rst = false →
      t.ptr = s.ptr ∧ t.duty = s.duty ∧ t.fbuf = s.fbuf ∧ t.flen = s.flen ∧ t.run = s.run)) ∧
  (∀ cfg : Config, (State.ofConfig cfg).run = .running)

/-- R185: a STOPPED cycle without RESET changes no state and gives no output, whatever it is offered; only RESET leaves
STOPPED. -/
def Obligations.StoppedCycleIsInert : Prop :=
  ∀ s : State, s.cfg.Valid → s.run = .stopped →
    ((nextInput s).rst = false →
      step s = .next { s with
        tx := none, dutyWe := false, driverCalls := [], inputs := s.inputs.tail } ∧
      ∃ t, step s = .next t ∧ observe t = { tx := none, dutyWe := false, dutyOut := s.duty }) ∧
    (∀ t, step s = .next t → t.run = .running → (nextInput s).rst = true)

/-- Derived from R183: a cycle with no token and no read changes no state of the block. That an empty list of inputs is such a
cycle is the model's choice (notes/assumptions/3.md). -/
def Obligations.QuietCycleChangesNothing : Prop :=
  ∀ s : State, s.Inv → nextInput s = CycleInput.quiet →
    step s = .next { s with tx := none, dutyWe := false, driverCalls := [], inputs := s.inputs.tail }

/-- Derived from R22, R28, R106 and, for the count of bytes, R85, R120, R127: outside RESET the duty file changes only in a
cycle that sets `duty_we`, and such a cycle is a RUNNING one without CANCEL that had at least `2N` bytes, those of an open
frame and those of its drain; a cycle without `duty_we` made no driver call. That State keeps the calls is the model's choice
(notes/assumptions/9.md). -/
def Obligations.DutyChangesOnlyByWrduty : Prop :=
  ∀ s t : State, s.Inv → step s = .next t → (nextInput s).rst = false →
    (t.dutyWe = false → t.duty = s.duty ∧ t.driverCalls = []) ∧
    (t.dutyWe = true → s.run = .running ∧ (nextInput s).cancel = false ∧
      2 * s.cfg.n ≤ s.flen + (dataBytes (nextInput s).rx).length)

/-- Derived from R21, R143: in DRAIN a RUNNING cycle without RESET or CANCEL whose frame is not 1 byte long moves the pointer
by its READ alone. -/
def Obligations.PointerMovesOnlyByRead : Prop :=
  ∀ s : State, s.Inv → s.run = .running → s.cfg.framing = .drain →
    (nextInput s).rst = false → (nextInput s).cancel = false → (dataBytes (nextInput s).rx).length ≠ 1 →
    ∃ t, step s = .next t ∧ t.ptr = if (nextInput s).rd then s.ptr + 1 else s.ptr

/-- Derived from R182: a cycle sends a byte exactly when it is RUNNING, neither reset nor cancelled, and a read is pending. -/
def Obligations.ByteSentExactlyOnRead : Prop :=
  ∀ s t : State, step s = .next t →
    (t.tx ≠ none ↔ s.run = .running ∧ (nextInput s).rst = false ∧ (nextInput s).cancel = false ∧
      (nextInput s).rd = true)

/-- Derived from R106: a cycle that delivers one duty frame makes exactly the calls `set_duty(i, duty[i])`, `i = 0..N-1`, in
that order. That State keeps the calls is the model's choice (notes/assumptions/9.md). -/
def Obligations.DutyFrameCallsDriverInOrder : Prop :=
  ∀ (s : State) (bytes : List Byte) (rd : Bool),
    s.ReadyFor (CycleInput.plain (writeTokens s.cfg.framing bytes) rd) →
    bytes.length = 2 * s.cfg.n →
    ∃ t, step s = .next t ∧ t.driverCalls.map Prod.fst = List.range s.cfg.n ∧
      t.driverCalls.map Prod.snd = t.duty

/-! ### Runs -/

/-- R144: writing a duty frame twice leaves the duties of writing it once, each write sets `duty_we` in its own cycle, and a
DISCARD between them changes nothing. -/
def Obligations.DutyWriteIdempotent : Prop :=
  ∀ (s : State) (bytes other : List Byte) (rest : List CycleInput),
    s.Inv → s.run = .running → s.flen = 0 → bytes.length = 2 * s.cfg.n →
    other.length ≠ 1 → other.length ≠ 2 * s.cfg.n →
    ∃ v, v.length = s.cfg.n ∧
      (s.inputs = writeCycle s.cfg.framing bytes :: writeCycle s.cfg.framing bytes :: rest →
        trace 2 s = [{ tx := none, dutyWe := true, dutyOut := v }, { tx := none, dutyWe := true, dutyOut := v }]) ∧
      (s.inputs = writeCycle s.cfg.framing bytes :: writeCycle s.cfg.framing other ::
          writeCycle s.cfg.framing bytes :: rest →
        trace 3 s = [{ tx := none, dutyWe := true, dutyOut := v }, { tx := none, dutyWe := false, dutyOut := v },
          { tx := none, dutyWe := true, dutyOut := v }])

/-- Derived from R162 and R163: `k` read cycles stream the map from the pointer, modulo 256, and leave the pointer `k`
further on. -/
def Obligations.SequentialReadStreamsMap : Prop :=
  ∀ (k : Nat) (s : State) (rest : List CycleInput), s.Inv → s.run = .running →
    s.inputs = (ScriptLine.readTimes k).cycles s.cfg.framing ++ rest →
    trace k s = (List.range k).map (fun j =>
      { tx := some (mapRead s (BitVec.ofNat 8 ((s.ptr.toNat + j) % 256))), dutyWe := false, dutyOut := s.duty }) ∧
    ∃ t, stepN k s = .next t ∧ t.ptr = BitVec.ofNat 8 ((s.ptr.toNat + k) % 256)

/-- Derived from 95_test_vectors.md S1, R141, R160: writing a `2N`-byte frame and reading the map back from address 2 returns
exactly the written bytes, in the same order, in every configuration and both framing modes. -/
def Obligations.WriteThenReadRoundTrip : Prop :=
  ∀ (s : State) (bytes : List Byte) (rest : List CycleInput),
    s.Inv → s.run = .running → s.flen = 0 → bytes.length = 2 * s.cfg.n →
    s.inputs = assemble s.cfg.framing [.write bytes, .rseq 2 (2 * s.cfg.n)] ++ rest →
    (trace (2 * s.cfg.n + 2) s).map Obs.tx = none :: none :: bytes.map some

/-- Derived from R92: the macro `SETDUTY` sets the duties it names and leaves the pointer. -/
def Obligations.SetdutyMacroSetsDuties : Prop :=
  ∀ (s : State) (v : List Duty) (rest : List CycleInput),
    s.Inv → s.run = .running → s.flen = 0 → v.length = s.cfg.n →
    s.inputs = (ScriptLine.setduty v).cycles s.cfg.framing ++ rest →
    ∃ t, step s = .next t ∧ t.duty = v ∧ t.dutyWe = true ∧ t.ptr = s.ptr ∧ t.flen = 0 ∧ t.inputs = rest

/-- Derived from R235: in DRAIN a write that reaches the block in parts shorter than `2N` bytes never changes the duties. Each
part of one byte is a SETPTR of it; every other part leaves the pointer. -/
def Obligations.SplitDutyWriteKeepsDuties : Prop :=
  ∀ (s : State) (parts : List (List Byte)) (rest : List CycleInput),
    s.Inv → s.run = .running → s.cfg.framing = .drain → (∀ part ∈ parts, part.length < 2 * s.cfg.n) →
    s.inputs = parts.map (writeCycle .drain) ++ rest →
    ∃ t, stepN parts.length s = .next t ∧ t.duty = s.duty ∧ t.inputs = rest ∧
      t.ptr = parts.foldl (fun p part => if part.length = 1 then part.headD p else p) s.ptr ∧
      ∀ o ∈ trace parts.length s, o = { tx := none, dutyWe := false, dutyOut := s.duty }

/-- Derived from R121, R236: in DRAIN the write transactions of one drain are one frame, the concatenation of their bytes: one
DISPATCH of it (none if there is no byte), then the read service. What it does goes by the total length; so two 1-byte writes
are a WRDUTY when `N = 1` and otherwise a DISCARD, and a pointer write with a duty write is a DISCARD. -/
def Obligations.MergedWritesBecomeOneFrame : Prop :=
  ∀ (s : State) (writes : List (List Byte)) (rd : Bool), s.cfg.framing = .drain →
    s.ReadyFor (CycleInput.plain (writes.flatMap (writeTokens .drain)) rd) →
    (writes.flatten = [] → step s = service rd (cycleStart s)) ∧
    (writes.flatten ≠ [] →
      step s = andThen (dispatch (withFrame writes.flatten (cycleStart s))) (service rd)) ∧
    (∀ p, writes.flatten = [p] →
      ∃ t, step s = .next t ∧ t.ptr = (if rd then p + 1 else p) ∧ t.duty = s.duty ∧ t.dutyWe = false) ∧
    (writes.flatten.length = 2 * s.cfg.n →
      ∃ t, step s = .next t ∧ t.ptr = (if rd then s.ptr + 1 else s.ptr) ∧
        t.duty = dutyOperands s.cfg.n writes.flatten ∧ t.dutyWe = true) ∧
    (writes.flatten.length ≠ 1 → writes.flatten.length ≠ 2 * s.cfg.n →
      ∃ t, step s = .next t ∧ t.ptr = (if rd then s.ptr + 1 else s.ptr) ∧ t.duty = s.duty ∧ t.dutyWe = false) ∧
    (∀ p q, writes = [[p], [q]] →
      ∃ t, step s = .next t ∧ t.ptr = (if rd then s.ptr + 1 else s.ptr) ∧
        (s.cfg.n = 1 → t.duty = [dutyOf p q] ∧ t.dutyWe = true) ∧
        (s.cfg.n ≠ 1 → t.duty = s.duty ∧ t.dutyWe = false)) ∧
    (∀ p bytes, writes = [[p], bytes] → bytes.length = 2 * s.cfg.n →
      ∃ t, step s = .next t ∧ t.ptr = (if rd then s.ptr + 1 else s.ptr) ∧ t.duty = s.duty ∧ t.dutyWe = false)

/-- Derived from R240: one write of a register address and then `2N` duty bytes is discarded, in both framing modes. -/
def Obligations.PrefixedDutyWriteDiscarded : Prop :=
  ∀ (s : State) (reg : Byte) (bytes : List Byte), bytes.length = 2 * s.cfg.n →
    s.ReadyFor (writeCycle s.cfg.framing (reg :: bytes)) →
    ∃ t, step s = .next t ∧ t.ptr = s.ptr ∧ t.duty = s.duty ∧ t.flen = 0 ∧
      observe t = { tx := none, dutyWe := false, dutyOut := s.duty }

/-- Derived from R238: a duty frame between the READs of the two bytes of a duty tears the read: the high byte of the old
value, then the low byte of the new. -/
def Obligations.ReadAcrossWriteIsTorn : Prop :=
  ∀ (s : State) (i : Nat) (bytes : List Byte) (rest : List CycleInput),
    s.Inv → s.run = .running → s.flen = 0 → i < s.cfg.n → s.ptr.toNat = 2 + 2 * i →
    bytes.length = 2 * s.cfg.n →
    s.inputs = assemble s.cfg.framing [.readTimes 1, .write bytes, .readTimes 1] ++ rest →
    (trace 3 s).map Obs.tx = [s.duty[i]?.map dutyHi, none, bytes[2 * i + 1]?]

/-! ### Refinement and what is unobservable -/

/-- Derived from R126, R101, R106: the bounded storage and the saturating counter give the source's dispatch on the full byte sequence: after
collecting any `bytes` from an empty frame, the counter is their number up to `2N+1`, and DISPATCH does what their number
and the whole sequence say. That State keeps the driver calls of a WRDUTY, in index order, is the model's choice
(notes/assumptions/9.md). -/
def Obligations.BoundedFrameMatchesUnbounded : Prop :=
  ∀ (s : State) (bytes : List Byte), s.Inv → s.flen = 0 →
    ∃ t, drain (bytes.map Token.data) s = .next t ∧
      (bytes.length ≤ 2 * s.cfg.n → t.flen = bytes.length) ∧
      (2 * s.cfg.n < bytes.length → t.flen = 2 * s.cfg.n + 1) ∧
      dispatch t = .next
        (if bytes.length = 1 then { s with fbuf := t.fbuf, ptr := bytes.headD 0 }
         else if bytes.length = 2 * s.cfg.n then
           { s with
             fbuf := t.fbuf
             duty := Reference.pairs bytes
             dutyWe := true
             driverCalls := s.driverCalls ++ (List.range s.cfg.n).zip (Reference.pairs bytes) }
         else { s with fbuf := t.fbuf })

/-- Derived from R126, R160, R180: cycle by cycle the block does what the reference machine with an unbounded frame and a
register map as a sequence does, from startup on and on every input. -/
def Obligations.BlockRefinesReference : Prop :=
  (∀ (cfg : Config) (inputs : List CycleInput), cfg.Valid →
    Reference.Represents { State.ofConfig cfg with inputs := inputs } (Reference.Ref.start cfg inputs)) ∧
  (∀ (s : State) (a : Reference.Ref), s.Inv → Reference.Represents s a →
    ∃ t, step s = .next t ∧ Reference.Represents t (Reference.step a))

/-- Derived from R23: a byte of the frame storage at or above `flen` is never read: two states that differ only there take
steps to states that differ only there, and no run observes a difference. -/
def Obligations.UnreadStorageIsUnobservable : Prop :=
  ∀ s t : State, s.cfg.Valid → s.AgreeOnFrame t →
    (∃ s' t', step s = .next s' ∧ step t = .next t' ∧ s'.AgreeOnFrame t' ∧ observe s' = observe t') ∧
    ∀ k, trace k s = trace k t

/-- Derived from R54 and R208 (T1, T4): a write transaction to another device reaches no token, neither `DATA` nor `END`. The
function `deliver` is the model's choice, and so is its reading of T4 that such a transaction yields no `END` either
(notes/assumptions/17.md). -/
def Obligations.OtherDevicesTrafficInvisible : Prop :=
  ∀ (cfg : Config) (before after : List BusWrite) (w : BusWrite), w.addr ≠ cfg.i2cAddr →
    deliver cfg (before ++ w :: after) = deliver cfg (before ++ after)
end

