-- ==== Sys2Proof/Laws/Decode.lean ====
section
/-! SUPPORT. What the decoder answers on each kind of code of a valid configuration, said once. -/

namespace Sys2Proof

theorem decode_invalid {cfg : Config} (h : ¬cfg.Valid) (c : Code) :
    decode cfg c = .rejected .badConfiguration := by
  unfold decode; rw [if_pos h]

theorem decode_data {cfg : Config} (h : cfg.Valid) (b : Byte) :
    decode cfg (.token (.data b)) = .instr (.collect b) := by
  unfold decode; rw [if_neg (not_not_intro h)]; rfl

theorem decode_endMark {cfg : Config} (h : cfg.Valid) :
    decode cfg (.token .endMark) = .rejected .endToken := by
  unfold decode; rw [if_neg (not_not_intro h)]; rfl

theorem decode_frame {cfg : Config} (h : cfg.Valid) {bytes : List Byte} (hb : bytes ≠ []) :
    decode cfg (.frame bytes) =
      .instr (decodeFrame cfg.n (frameCount cfg.n bytes.length) (bytes.take (2 * cfg.n))) := by
  unfold decode; rw [if_neg (not_not_intro h)]; exact if_neg fun e => hb e.2

theorem decode_service {cfg : Config} (h : cfg.Valid) (rd : Bool) :
    decode cfg (.service rd) = .instr (decodeService rd) := by
  unfold decode; rw [if_neg (not_not_intro h)]

theorem decode_control {cfg : Config} (h : cfg.Valid) {rst cancel : Bool} {run : RunState} {i : Instr}
    (hi : decodeControl rst run cancel = some i) : decode cfg (.control rst run cancel) = .instr i := by
  unfold decode; rw [if_neg (not_not_intro h)]; simp only [hi]

/-- A frame of length 1 is a SETPTR (R85). -/
theorem decodeFrame_one (n : Nat) (fbuf : List Byte) :
    decodeFrame n 1 fbuf = .setptr (fbuf.getD 0 0) := if_pos rfl

/-- A frame of length `2N` is a WRDUTY (R85). -/
theorem decodeFrame_two_n (n : Nat) (fbuf : List Byte) :
    decodeFrame n (2 * n) fbuf = .wrduty (dutyOperands n fbuf) := by
  unfold decodeFrame; rw [if_neg (by omega), if_pos rfl]

/-- A frame of any other length is a DISCARD (R85). -/
theorem decodeFrame_other {n flen : Nat} (h1 : flen ≠ 1) (h2 : flen ≠ 2 * n) (fbuf : List Byte) :
    decodeFrame n flen fbuf = .discard := by
  unfold decodeFrame; rw [if_neg h1, if_neg h2]

end Sys2Proof
end

