-- ==== Sys2Proof/Laws/State.lean ====
section
/-! SUPPORT. One lemma per field of State for each update of Machine/Ops.lean, so that no later proof unfolds a record update. -/

namespace Sys2Proof.Machine

@[simp] theorem plain_rx (rx : List Token) (rd : Bool) : (CycleInput.plain rx rd).rx = rx := rfl
@[simp] theorem plain_rd (rx : List Token) (rd : Bool) : (CycleInput.plain rx rd).rd = rd := rfl
@[simp] theorem plain_cancel (rx : List Token) (rd : Bool) : (CycleInput.plain rx rd).cancel = false := rfl
@[simp] theorem plain_rst (rx : List Token) (rd : Bool) : (CycleInput.plain rx rd).rst = false := rfl

@[simp] theorem setPtr_cfg (p : Byte) (s : State) : (setPtr p s).cfg = s.cfg := rfl
@[simp] theorem setPtr_ptr (p : Byte) (s : State) : (setPtr p s).ptr = p := rfl
@[simp] theorem setPtr_duty (p : Byte) (s : State) : (setPtr p s).duty = s.duty := rfl
@[simp] theorem setPtr_fbuf (p : Byte) (s : State) : (setPtr p s).fbuf = s.fbuf := rfl
@[simp] theorem setPtr_flen (p : Byte) (s : State) : (setPtr p s).flen = s.flen := rfl
@[simp] theorem setPtr_run (p : Byte) (s : State) : (setPtr p s).run = s.run := rfl
@[simp] theorem setPtr_tx (p : Byte) (s : State) : (setPtr p s).tx = s.tx := rfl
@[simp] theorem setPtr_dutyWe (p : Byte) (s : State) : (setPtr p s).dutyWe = s.dutyWe := rfl
@[simp] theorem setPtr_driverCalls (p : Byte) (s : State) : (setPtr p s).driverCalls = s.driverCalls := rfl
@[simp] theorem setPtr_inputs (p : Byte) (s : State) : (setPtr p s).inputs = s.inputs := rfl

@[simp] theorem send_cfg (v : Byte) (s : State) : (send v s).cfg = s.cfg := rfl
@[simp] theorem send_ptr (v : Byte) (s : State) : (send v s).ptr = s.ptr := rfl
@[simp] theorem send_duty (v : Byte) (s : State) : (send v s).duty = s.duty := rfl
@[simp] theorem send_fbuf (v : Byte) (s : State) : (send v s).fbuf = s.fbuf := rfl
@[simp] theorem send_flen (v : Byte) (s : State) : (send v s).flen = s.flen := rfl
@[simp] theorem send_run (v : Byte) (s : State) : (send v s).run = s.run := rfl
@[simp] theorem send_tx (v : Byte) (s : State) : (send v s).tx = some v := rfl
@[simp] theorem send_dutyWe (v : Byte) (s : State) : (send v s).dutyWe = s.dutyWe := rfl
@[simp] theorem send_driverCalls (v : Byte) (s : State) : (send v s).driverCalls = s.driverCalls := rfl
@[simp] theorem send_inputs (v : Byte) (s : State) : (send v s).inputs = s.inputs := rfl

@[simp] theorem setAll_cfg (v : List Duty) (s : State) : (setAll v s).cfg = s.cfg := rfl
@[simp] theorem setAll_ptr (v : List Duty) (s : State) : (setAll v s).ptr = s.ptr := rfl
@[simp] theorem setAll_duty (v : List Duty) (s : State) : (setAll v s).duty = v := rfl
@[simp] theorem setAll_fbuf (v : List Duty) (s : State) : (setAll v s).fbuf = s.fbuf := rfl
@[simp] theorem setAll_flen (v : List Duty) (s : State) : (setAll v s).flen = s.flen := rfl
@[simp] theorem setAll_run (v : List Duty) (s : State) : (setAll v s).run = s.run := rfl
@[simp] theorem setAll_tx (v : List Duty) (s : State) : (setAll v s).tx = s.tx := rfl
@[simp] theorem setAll_dutyWe (v : List Duty) (s : State) : (setAll v s).dutyWe = true := rfl
@[simp] theorem setAll_driverCalls (v : List Duty) (s : State) : (setAll v s).driverCalls = s.driverCalls ++ (List.range v.length).zip v := rfl
@[simp] theorem setAll_inputs (v : List Duty) (s : State) : (setAll v s).inputs = s.inputs := rfl

@[simp] theorem appendByte_cfg (b : Byte) (s : State) : (appendByte b s).cfg = s.cfg := rfl
@[simp] theorem appendByte_ptr (b : Byte) (s : State) : (appendByte b s).ptr = s.ptr := rfl
@[simp] theorem appendByte_duty (b : Byte) (s : State) : (appendByte b s).duty = s.duty := rfl
@[simp] theorem appendByte_fbuf (b : Byte) (s : State) : (appendByte b s).fbuf = (if s.flen < 2 * s.cfg.n then s.fbuf.set s.flen b else s.fbuf) := rfl
@[simp] theorem appendByte_flen (b : Byte) (s : State) : (appendByte b s).flen = min (s.flen + 1) (2 * s.cfg.n + 1) := rfl
@[simp] theorem appendByte_run (b : Byte) (s : State) : (appendByte b s).run = s.run := rfl
@[simp] theorem appendByte_tx (b : Byte) (s : State) : (appendByte b s).tx = s.tx := rfl
@[simp] theorem appendByte_dutyWe (b : Byte) (s : State) : (appendByte b s).dutyWe = s.dutyWe := rfl
@[simp] theorem appendByte_driverCalls (b : Byte) (s : State) : (appendByte b s).driverCalls = s.driverCalls := rfl
@[simp] theorem appendByte_inputs (b : Byte) (s : State) : (appendByte b s).inputs = s.inputs := rfl

@[simp] theorem clearFrame_cfg (s : State) : (clearFrame s).cfg = s.cfg := rfl
@[simp] theorem clearFrame_ptr (s : State) : (clearFrame s).ptr = s.ptr := rfl
@[simp] theorem clearFrame_duty (s : State) : (clearFrame s).duty = s.duty := rfl
@[simp] theorem clearFrame_fbuf (s : State) : (clearFrame s).fbuf = s.fbuf := rfl
@[simp] theorem clearFrame_flen (s : State) : (clearFrame s).flen = 0 := rfl
@[simp] theorem clearFrame_run (s : State) : (clearFrame s).run = s.run := rfl
@[simp] theorem clearFrame_tx (s : State) : (clearFrame s).tx = s.tx := rfl
@[simp] theorem clearFrame_dutyWe (s : State) : (clearFrame s).dutyWe = s.dutyWe := rfl
@[simp] theorem clearFrame_driverCalls (s : State) : (clearFrame s).driverCalls = s.driverCalls := rfl
@[simp] theorem clearFrame_inputs (s : State) : (clearFrame s).inputs = s.inputs := rfl

@[simp] theorem setRun_cfg (r : RunState) (s : State) : (setRun r s).cfg = s.cfg := rfl
@[simp] theorem setRun_ptr (r : RunState) (s : State) : (setRun r s).ptr = s.ptr := rfl
@[simp] theorem setRun_duty (r : RunState) (s : State) : (setRun r s).duty = s.duty := rfl
@[simp] theorem setRun_fbuf (r : RunState) (s : State) : (setRun r s).fbuf = s.fbuf := rfl
@[simp] theorem setRun_flen (r : RunState) (s : State) : (setRun r s).flen = s.flen := rfl
@[simp] theorem setRun_run (r : RunState) (s : State) : (setRun r s).run = r := rfl
@[simp] theorem setRun_tx (r : RunState) (s : State) : (setRun r s).tx = s.tx := rfl
@[simp] theorem setRun_dutyWe (r : RunState) (s : State) : (setRun r s).dutyWe = s.dutyWe := rfl
@[simp] theorem setRun_driverCalls (r : RunState) (s : State) : (setRun r s).driverCalls = s.driverCalls := rfl
@[simp] theorem setRun_inputs (r : RunState) (s : State) : (setRun r s).inputs = s.inputs := rfl

@[simp] theorem zeroDuty_cfg (s : State) : (zeroDuty s).cfg = s.cfg := rfl
@[simp] theorem zeroDuty_ptr (s : State) : (zeroDuty s).ptr = s.ptr := rfl
@[simp] theorem zeroDuty_duty (s : State) : (zeroDuty s).duty = List.replicate s.cfg.n 0 := rfl
@[simp] theorem zeroDuty_fbuf (s : State) : (zeroDuty s).fbuf = s.fbuf := rfl
@[simp] theorem zeroDuty_flen (s : State) : (zeroDuty s).flen = s.flen := rfl
@[simp] theorem zeroDuty_run (s : State) : (zeroDuty s).run = s.run := rfl
@[simp] theorem zeroDuty_tx (s : State) : (zeroDuty s).tx = s.tx := rfl
@[simp] theorem zeroDuty_dutyWe (s : State) : (zeroDuty s).dutyWe = s.dutyWe := rfl
@[simp] theorem zeroDuty_driverCalls (s : State) : (zeroDuty s).driverCalls = s.driverCalls := rfl
@[simp] theorem zeroDuty_inputs (s : State) : (zeroDuty s).inputs = s.inputs := rfl

@[simp] theorem clearOutputs_cfg (s : State) : (clearOutputs s).cfg = s.cfg := rfl
@[simp] theorem clearOutputs_ptr (s : State) : (clearOutputs s).ptr = s.ptr := rfl
@[simp] theorem clearOutputs_duty (s : State) : (clearOutputs s).duty = s.duty := rfl
@[simp] theorem clearOutputs_fbuf (s : State) : (clearOutputs s).fbuf = s.fbuf := rfl
@[simp] theorem clearOutputs_flen (s : State) : (clearOutputs s).flen = s.flen := rfl
@[simp] theorem clearOutputs_run (s : State) : (clearOutputs s).run = s.run := rfl
@[simp] theorem clearOutputs_tx (s : State) : (clearOutputs s).tx = none := rfl
@[simp] theorem clearOutputs_dutyWe (s : State) : (clearOutputs s).dutyWe = false := rfl
@[simp] theorem clearOutputs_driverCalls (s : State) : (clearOutputs s).driverCalls = [] := rfl
@[simp] theorem clearOutputs_inputs (s : State) : (clearOutputs s).inputs = s.inputs := rfl

@[simp] theorem popInput_cfg (s : State) : (popInput s).cfg = s.cfg := rfl
@[simp] theorem popInput_ptr (s : State) : (popInput s).ptr = s.ptr := rfl
@[simp] theorem popInput_duty (s : State) : (popInput s).duty = s.duty := rfl
@[simp] theorem popInput_fbuf (s : State) : (popInput s).fbuf = s.fbuf := rfl
@[simp] theorem popInput_flen (s : State) : (popInput s).flen = s.flen := rfl
@[simp] theorem popInput_run (s : State) : (popInput s).run = s.run := rfl
@[simp] theorem popInput_tx (s : State) : (popInput s).tx = s.tx := rfl
@[simp] theorem popInput_dutyWe (s : State) : (popInput s).dutyWe = s.dutyWe := rfl
@[simp] theorem popInput_driverCalls (s : State) : (popInput s).driverCalls = s.driverCalls := rfl
@[simp] theorem popInput_inputs (s : State) : (popInput s).inputs = s.inputs.tail := rfl

@[simp] theorem cycleStart_cfg (s : State) : (cycleStart s).cfg = s.cfg := rfl
@[simp] theorem cycleStart_ptr (s : State) : (cycleStart s).ptr = s.ptr := rfl
@[simp] theorem cycleStart_duty (s : State) : (cycleStart s).duty = s.duty := rfl
@[simp] theorem cycleStart_fbuf (s : State) : (cycleStart s).fbuf = s.fbuf := rfl
@[simp] theorem cycleStart_flen (s : State) : (cycleStart s).flen = s.flen := rfl
@[simp] theorem cycleStart_run (s : State) : (cycleStart s).run = s.run := rfl
@[simp] theorem cycleStart_tx (s : State) : (cycleStart s).tx = none := rfl
@[simp] theorem cycleStart_dutyWe (s : State) : (cycleStart s).dutyWe = false := rfl
@[simp] theorem cycleStart_driverCalls (s : State) : (cycleStart s).driverCalls = [] := rfl
@[simp] theorem cycleStart_inputs (s : State) : (cycleStart s).inputs = s.inputs.tail := rfl

@[simp] theorem presentFrame_cfg (s : State) (bytes : List Byte) : (presentFrame s bytes).cfg = s.cfg := rfl
@[simp] theorem presentFrame_ptr (s : State) (bytes : List Byte) : (presentFrame s bytes).ptr = s.ptr := rfl
@[simp] theorem presentFrame_duty (s : State) (bytes : List Byte) : (presentFrame s bytes).duty = s.duty := rfl
@[simp] theorem presentFrame_fbuf (s : State) (bytes : List Byte) : (presentFrame s bytes).fbuf = s.fbuf := rfl
@[simp] theorem presentFrame_flen (s : State) (bytes : List Byte) : (presentFrame s bytes).flen = 0 := rfl
@[simp] theorem presentFrame_run (s : State) (bytes : List Byte) : (presentFrame s bytes).run = .running := rfl
@[simp] theorem presentFrame_tx (s : State) (bytes : List Byte) : (presentFrame s bytes).tx = s.tx := rfl
@[simp] theorem presentFrame_dutyWe (s : State) (bytes : List Byte) : (presentFrame s bytes).dutyWe = s.dutyWe := rfl
@[simp] theorem presentFrame_driverCalls (s : State) (bytes : List Byte) : (presentFrame s bytes).driverCalls = s.driverCalls := rfl
@[simp] theorem presentFrame_inputs (s : State) (bytes : List Byte) : (presentFrame s bytes).inputs = CycleInput.plain (writeTokens s.cfg.framing bytes) false :: s.inputs := rfl

@[simp] theorem withFrame_cfg (bytes : List Byte) (s : State) : (withFrame bytes s).cfg = s.cfg := rfl
@[simp] theorem withFrame_ptr (bytes : List Byte) (s : State) : (withFrame bytes s).ptr = s.ptr := rfl
@[simp] theorem withFrame_duty (bytes : List Byte) (s : State) : (withFrame bytes s).duty = s.duty := rfl
@[simp] theorem withFrame_fbuf (bytes : List Byte) (s : State) : (withFrame bytes s).fbuf = storedFrame s.cfg.n bytes s.fbuf := rfl
@[simp] theorem withFrame_flen (bytes : List Byte) (s : State) : (withFrame bytes s).flen = frameCount s.cfg.n bytes.length := rfl
@[simp] theorem withFrame_run (bytes : List Byte) (s : State) : (withFrame bytes s).run = s.run := rfl
@[simp] theorem withFrame_tx (bytes : List Byte) (s : State) : (withFrame bytes s).tx = s.tx := rfl
@[simp] theorem withFrame_dutyWe (bytes : List Byte) (s : State) : (withFrame bytes s).dutyWe = s.dutyWe := rfl
@[simp] theorem withFrame_driverCalls (bytes : List Byte) (s : State) : (withFrame bytes s).driverCalls = s.driverCalls := rfl
@[simp] theorem withFrame_inputs (bytes : List Byte) (s : State) : (withFrame bytes s).inputs = s.inputs := rfl

@[simp] theorem ofConfig_cfg (cfg : Config) : (State.ofConfig cfg).cfg = cfg := rfl
@[simp] theorem ofConfig_ptr (cfg : Config) : (State.ofConfig cfg).ptr = 0 := rfl
@[simp] theorem ofConfig_duty (cfg : Config) : (State.ofConfig cfg).duty = List.replicate cfg.n 0 := rfl
@[simp] theorem ofConfig_fbuf (cfg : Config) : (State.ofConfig cfg).fbuf = List.replicate (2 * cfg.n) 0 := rfl
@[simp] theorem ofConfig_flen (cfg : Config) : (State.ofConfig cfg).flen = 0 := rfl
@[simp] theorem ofConfig_run (cfg : Config) : (State.ofConfig cfg).run = .running := rfl
@[simp] theorem ofConfig_tx (cfg : Config) : (State.ofConfig cfg).tx = none := rfl
@[simp] theorem ofConfig_dutyWe (cfg : Config) : (State.ofConfig cfg).dutyWe = false := rfl
@[simp] theorem ofConfig_driverCalls (cfg : Config) : (State.ofConfig cfg).driverCalls = [] := rfl
@[simp] theorem ofConfig_inputs (cfg : Config) : (State.ofConfig cfg).inputs = [] := rfl

end Sys2Proof.Machine
end

