-- ==== Sys2Proof/Laws/Exec.lean ====
section
/-! SUPPORT. What exec, DISPATCH, the drain, the cycle and the step can do, said once: each answers a next state, given here
as a function of the state before, so that a proof cites these equations and never unfolds the machine. -/

namespace Sys2Proof.Machine

@[simp] theorem andThen_next (s : State) (f : State → Host.Outcome State Fault Refusal) :
    andThen (.next s) f = f s := rfl

/-- The next state of an operation. -/
def execState : Instr → State → State
  | .collect b, s => appendByte b s
  | .setptr p, s => setPtr p s
  | .wrduty v, s => setAll v s
  | .discard, s => s
  | .read, s => setPtr (s.ptr + 1) (send (readValue s) s)
  | .noread, s => s
  | .cancel, s => clearFrame (setRun .stopped s)
  | .reset, s => setRun .running (clearFrame (zeroDuty (setPtr 0 s)))

/-- Every operation answers a next state (R200). -/
theorem exec_next (i : Instr) (s : State) : exec i s = .next (execState i s) := by
  cases i <;> rfl

/-- No operation writes the configuration (R20). -/
@[simp] theorem execState_cfg (i : Instr) (s : State) : (execState i s).cfg = s.cfg := by
  cases i <;> rfl

/-- No operation touches the environment's inputs. -/
@[simp] theorem execState_inputs (i : Instr) (s : State) : (execState i s).inputs = s.inputs := by
  cases i <;> rfl

/-- The state after DISPATCH (R127). -/
def dispatchState (s : State) : State :=
  clearFrame (execState (decodeFrame s.cfg.n s.flen s.fbuf) s)

theorem dispatch_next (s : State) : dispatch s = .next (dispatchState s) := by
  simp only [dispatch, exec_next, andThen_next]; rfl

@[simp] theorem dispatchState_cfg (s : State) : (dispatchState s).cfg = s.cfg := by
  simp [dispatchState]

@[simp] theorem dispatchState_inputs (s : State) : (dispatchState s).inputs = s.inputs := by
  simp [dispatchState]

@[simp] theorem dispatchState_flen (s : State) : (dispatchState s).flen = 0 := rfl

/-- The state after one token of the drain (R180). -/
def tokenState (s : State) : Token → State
  | .data b => appendByte b s
  | .endMark => if s.cfg.framing = .eot then dispatchState s else s

theorem takeToken_next (tok : Token) (s : State) : takeToken tok s = .next (tokenState s tok) := by
  cases tok with
  | data b => rfl
  | endMark =>
    simp only [takeToken, decodeToken, tokenState]
    split
    · exact dispatch_next s
    · rfl

@[simp] theorem tokenState_cfg (s : State) (tok : Token) : (tokenState s tok).cfg = s.cfg := by
  cases tok with
  | data b => rfl
  | endMark => simp only [tokenState]; split <;> simp

@[simp] theorem tokenState_inputs (s : State) (tok : Token) : (tokenState s tok).inputs = s.inputs := by
  cases tok with
  | data b => rfl
  | endMark => simp only [tokenState]; split <;> simp

/-- The state after the drain: the tokens taken from left to right. -/
def drainState (rx : List Token) (s : State) : State := rx.foldl tokenState s

@[simp] theorem drainState_nil (s : State) : drainState [] s = s := rfl

@[simp] theorem drainState_cons (tok : Token) (rest : List Token) (s : State) :
    drainState (tok :: rest) s = drainState rest (tokenState s tok) := rfl

@[simp] theorem drainState_append (rx ry : List Token) (s : State) :
    drainState (rx ++ ry) s = drainState ry (drainState rx s) := by
  simp [drainState]

theorem drain_next (rx : List Token) (s : State) : drain rx s = .next (drainState rx s) := by
  induction rx generalizing s with
  | nil => rfl
  | cons tok rest ih => simp only [drain, takeToken_next, andThen_next, ih, drainState_cons]

@[simp] theorem drainState_cfg (rx : List Token) (s : State) : (drainState rx s).cfg = s.cfg := by
  induction rx generalizing s with
  | nil => rfl
  | cons tok rest ih => simp [ih]

@[simp] theorem drainState_inputs (rx : List Token) (s : State) : (drainState rx s).inputs = s.inputs := by
  induction rx generalizing s with
  | nil => rfl
  | cons tok rest ih => simp [ih]

/-- The state after the end of the drain (R121, R124). -/
def endState (s : State) : State :=
  if s.cfg.framing = .drain ∧ 0 < s.flen then dispatchState s else s

theorem endOfDrain_next (s : State) : endOfDrain s = .next (endState s) := by
  simp only [endOfDrain, endState]
  split
  · exact dispatch_next s
  · rfl

@[simp] theorem endState_cfg (s : State) : (endState s).cfg = s.cfg := by
  simp only [endState]; split <;> simp

@[simp] theorem endState_inputs (s : State) : (endState s).inputs = s.inputs := by
  simp only [endState]; split <;> simp

theorem service_next (rd : Bool) (s : State) :
    service rd s = .next (execState (decodeService rd) s) := exec_next _ s

/-- The state after the parts (a) to (c) of a cycle (R180). -/
def activeState (inp : CycleInput) (s : State) : State :=
  execState (decodeService inp.rd) (endState (drainState inp.rx s))

theorem activeCycle_next (inp : CycleInput) (s : State) :
    activeCycle inp s = .next (activeState inp s) := by
  simp only [activeCycle, drain_next, endOfDrain_next, service_next, andThen_next, activeState]

/-- The state after a cycle whose inputs are `inp`, from the state its operations start in (R180, R205). -/
def cycleState (inp : CycleInput) (s : State) : State :=
  if inp.rst = true then execState .reset s
  else if s.run = .stopped then s
  else if inp.cancel = true then execState .cancel s
  else activeState inp s

theorem cycle_next (inp : CycleInput) (s : State) :
    cycle inp s = .next (cycleState inp (clearOutputs s)) := by
  rcases inp with ⟨rx, rd, cancel, rst⟩
  cases rst <;> cases cancel <;> cases h : s.run <;>
    simp [cycle, decodeControl, cycleState, exec_next, activeCycle_next, h]

/-- The state after a step of a configured block. -/
def stepState (s : State) : State := cycleState (nextInput s) (cycleStart s)

/-- Every cycle of a configured block ends in a next state. -/
theorem step_next {s : State} (h : s.cfg.Valid) : step s = .next (stepState s) := by
  rw [step, pollCycle, if_pos h, cycle_next]; rfl

theorem step_refused {s : State} (h : ¬s.cfg.Valid) : step s = .refused .badConfiguration := by
  rw [step, pollCycle, if_neg h]

/-- What a step that answers a next state can have done: the whole of R180, case by case. -/
theorem step_cases {s t : State} (h : step s = .next t) :
    s.cfg.Valid ∧
      (((nextInput s).rst = true ∧ t = execState .reset (cycleStart s)) ∨
       ((nextInput s).rst = false ∧ s.run = .stopped ∧ t = cycleStart s) ∨
       ((nextInput s).rst = false ∧ s.run = .running ∧ (nextInput s).cancel = true ∧
          t = execState .cancel (cycleStart s)) ∨
       ((nextInput s).rst = false ∧ s.run = .running ∧ (nextInput s).cancel = false ∧
          t = activeState (nextInput s) (cycleStart s))) := by
  by_cases hv : s.cfg.Valid
  · refine ⟨hv, ?_⟩
    rw [step_next hv] at h
    injection h with h
    subst h
    cases h1 : (nextInput s).rst
    · cases h2 : s.run
      · cases h3 : (nextInput s).cancel <;> simp [stepState, cycleState, h1, h2, h3]
      · simp [stepState, cycleState, h1, h2]
    · simp [stepState, cycleState, h1]
  · rw [step_refused hv] at h
    cases h

end Sys2Proof.Machine
end

