-- ==== Sys2Proof/Laws/Ops.lean ====
section
/-! SUPPORT. The operand forms, the register map and the frame storage: each operation's own facts. -/

namespace Sys2Proof

@[simp] theorem dutyHi_dutyOf (hi lo : Byte) : dutyHi (dutyOf hi lo) = hi := by
  apply BitVec.eq_of_getLsbD_eq
  intro i hi'
  simp only [dutyHi, dutyOf, BitVec.getLsbD_extractLsb', BitVec.getLsbD_append]
  simp [hi']

@[simp] theorem dutyLo_dutyOf (hi lo : Byte) : dutyLo (dutyOf hi lo) = lo := by
  apply BitVec.eq_of_getLsbD_eq
  intro i hi'
  simp only [dutyLo, dutyOf, BitVec.getLsbD_extractLsb', BitVec.getLsbD_append]
  simp [hi']

@[simp] theorem dutyBytes_nil : dutyBytes [] = [] := rfl

@[simp] theorem dutyBytes_cons (d : Duty) (v : List Duty) :
    dutyBytes (d :: v) = dutyHi d :: dutyLo d :: dutyBytes v := rfl

@[simp] theorem dutyBytes_length (v : List Duty) : (dutyBytes v).length = 2 * v.length := by
  induction v with
  | nil => rfl
  | cons d v ih => simp only [dutyBytes_cons, List.length_cons, ih]; omega

/-- Byte `2i` of the byte view is the high byte of duty `i`. -/
theorem dutyBytes_even (v : List Duty) (i : Nat) : (dutyBytes v)[2 * i]? = v[i]?.map dutyHi := by
  induction v generalizing i with
  | nil => simp
  | cons d v ih =>
    cases i with
    | zero => simp
    | succ i =>
      rw [dutyBytes_cons, show 2 * (i + 1) = 2 * i + 1 + 1 by omega]
      simp [ih]

/-- Byte `2i + 1` of the byte view is the low byte of duty `i`. -/
theorem dutyBytes_odd (v : List Duty) (i : Nat) : (dutyBytes v)[2 * i + 1]? = v[i]?.map dutyLo := by
  induction v generalizing i with
  | nil => simp
  | cons d v ih =>
    cases i with
    | zero => simp
    | succ i =>
      rw [dutyBytes_cons, show 2 * (i + 1) + 1 = 2 * i + 1 + 1 + 1 by omega]
      simp [ih]

@[simp] theorem dutyOperands_length (n : Nat) (fbuf : List Byte) : (dutyOperands n fbuf).length = n := by
  simp [dutyOperands]

theorem dutyOperands_getElem? (n : Nat) (fbuf : List Byte) {i : Nat} (h : i < n) :
    (dutyOperands n fbuf)[i]? = some (dutyOf (fbuf.getD (2 * i) 0) (fbuf.getD (2 * i + 1) 0)) := by
  simp [dutyOperands, h]

theorem frameCount_le (n k : Nat) : frameCount n k ≤ 2 * n + 1 := Nat.min_le_right _ _

theorem frameCount_succ (n k : Nat) : min (frameCount n k + 1) (2 * n + 1) = frameCount n (k + 1) := by
  simp only [frameCount]; omega

namespace Machine

@[simp] theorem registerMap_length (s : State) :
    (registerMap s).length = 2 + 2 * s.duty.length := by
  simp [registerMap, readDutyBytes]; omega

/-- A COLLECT keeps the storage's size. -/
theorem appendByte_fbuf_length (b : Byte) (s : State) :
    (appendByte b s).fbuf.length = s.fbuf.length := by
  simp only [appendByte_fbuf]; split <;> simp

/-- A COLLECT keeps every stored byte but the one at the counter. -/
theorem appendByte_fbuf_ne (b : Byte) (s : State) {j : Nat} (h : j ≠ s.flen) :
    (appendByte b s).fbuf[j]? = s.fbuf[j]? := by
  simp only [appendByte_fbuf]
  split
  · exact List.getElem?_set_ne (fun e => h e.symm)
  · rfl

/-- The register map reads the configuration and the duty file and nothing else. -/
theorem mapRead_congr {s t : State} (hc : s.cfg = t.cfg) (hd : s.duty = t.duty) (a : Byte) :
    mapRead s a = mapRead t a := by
  unfold mapRead mapLength; rw [hc, hd]

/-- An unmapped address reads 0 (R52). -/
theorem mapRead_of_length_le {s : State} {a : Byte} (h : mapLength s ≤ a.toNat) : mapRead s a = 0 := by
  have h2 : 2 ≤ a.toNat := by simp only [mapLength] at h; omega
  simp only [mapRead]
  rw [if_neg (by omega), if_neg (by omega), if_neg (by omega)]

/-- READ's own range test agrees with the map's (R160, R52). -/
theorem readValue_eq (s : State) : readValue s = mapRead s s.ptr := by
  simp only [readValue]
  split
  · rfl
  · exact (mapRead_of_length_le (by omega)).symm

/-- The bytes of `writeTokens` are COLLECTs, and in EOT the mark is a DISPATCH. -/
theorem drainState_writeTokens (f : Framing) (bytes : List Byte) (s : State) :
    drainState (writeTokens f bytes) s =
      if f = .eot then tokenState (drainState (bytes.map Token.data) s) .endMark
      else drainState (bytes.map Token.data) s := by
  simp only [writeTokens, drainState_append]
  split <;> simp

end Machine

end Sys2Proof
end

