-- ==== Sys2Proof/Laws/Frame.lean ====
section
/-! SUPPORT. Collecting a whole frame, said once: from an empty frame the `DATA` tokens of a byte sequence leave the state
`withFrame` names, and the storage then reads as the sequence does. -/

namespace Sys2Proof.Machine

@[simp] theorem storedFrame_nil (n : Nat) (fbuf : List Byte) : storedFrame n [] fbuf = fbuf := by
  simp [storedFrame]

theorem storedFrame_length {n : Nat} {bytes fbuf : List Byte} (h : fbuf.length = 2 * n) :
    (storedFrame n bytes fbuf).length = 2 * n := by
  simp [storedFrame, h]

/-- One more byte: it lands at the counter while there is room (R120). -/
theorem storedFrame_snoc {n : Nat} {bytes fbuf : List Byte} (b : Byte) (h : fbuf.length = 2 * n) :
    storedFrame n (bytes ++ [b]) fbuf =
      if frameCount n bytes.length < 2 * n then (storedFrame n bytes fbuf).set (frameCount n bytes.length) b
      else storedFrame n bytes fbuf := by
  by_cases hl : bytes.length < 2 * n
  · have hc : frameCount n bytes.length = bytes.length := by simp only [frameCount]; omega
    have hd : fbuf.drop bytes.length = fbuf[bytes.length] :: fbuf.drop (bytes.length + 1) :=
      List.drop_eq_getElem_cons (by omega)
    have h1 : (bytes ++ [b]).take (2 * n) = bytes ++ [b] := List.take_of_length_le (by simp; omega)
    have h2 : bytes.take (2 * n) = bytes := List.take_of_length_le (by omega)
    rw [hc, if_pos hl]
    simp only [storedFrame, h1, h2, List.length_append, List.length_singleton]
    rw [List.set_append_right _ _ (Nat.le_refl _), Nat.sub_self, hd, List.set_cons_zero]
    simp
  · have hc : ¬frameCount n bytes.length < 2 * n := by simp only [frameCount]; omega
    have h1 : (bytes ++ [b]).take (2 * n) = bytes.take (2 * n) := List.take_append_of_le_length (by omega)
    rw [if_neg hc]
    simp only [storedFrame, h1]

/-- COLLECT after `withFrame` is `withFrame` of one more byte. -/
theorem appendByte_withFrame {s : State} (h : s.fbuf.length = 2 * s.cfg.n) (bytes : List Byte) (b : Byte) :
    appendByte b (withFrame bytes s) = withFrame (bytes ++ [b]) s := by
  unfold appendByte
  simp only [withFrame, storedFrame_snoc b h, List.length_append, List.length_singleton, frameCount_succ]
  rfl

/-- The `DATA` tokens of `bytes`, collected from an empty frame. -/
theorem drainState_data {s : State} (h : s.fbuf.length = 2 * s.cfg.n) (h0 : s.flen = 0) (bytes : List Byte) :
    drainState (bytes.map Token.data) s = withFrame bytes s := by
  induction bytes using List.reverseRecOn with
  | nil =>
    have : withFrame [] s = { s with flen := 0 } := by simp [withFrame, frameCount]
    rw [this, ← h0]; rfl
  | append_singleton bytes b ih =>
    rw [List.map_append, drainState_append, ih, ← appendByte_withFrame h]; rfl

/-- The storage of a collected frame reads as the frame, up to `2N` bytes. -/
theorem storedFrame_getD {n : Nat} {bytes fbuf : List Byte} {j : Nat} (hj : j < bytes.length) (hn : j < 2 * n) :
    (storedFrame n bytes fbuf).getD j 0 = bytes.getD j 0 := by
  have hl : j < (bytes.take (2 * n)).length := by simp; omega
  simp only [storedFrame, List.getD_eq_getElem?_getD]
  rw [List.getElem?_append_left hl, List.getElem?_take_of_lt hn]

/-- The operands of a WRDUTY depend on the first `2N` bytes alone. -/
theorem dutyOperands_congr {n : Nat} {f g : List Byte} (h : ∀ j, j < 2 * n → f.getD j 0 = g.getD j 0) :
    dutyOperands n f = dutyOperands n g := by
  simp only [dutyOperands]
  refine List.map_congr_left fun i hi => ?_
  have := List.mem_range.mp hi
  rw [h _ (by omega), h _ (by omega)]

/-- DISPATCH of a collected frame selects what its bytes decode to. -/
theorem decodeFrame_withFrame {n : Nat} (hn : 1 ≤ n) (bytes fbuf : List Byte) :
    decodeFrame n (frameCount n bytes.length) (storedFrame n bytes fbuf) =
      decodeFrame n (frameCount n bytes.length) (bytes.take (2 * n)) := by
  have hr : ∀ j, j < 2 * n → j < bytes.length → (bytes.take (2 * n)).getD j 0 = bytes.getD j 0 := fun j h1 _ => by
    simp only [List.getD_eq_getElem?_getD, List.getElem?_take_of_lt h1]
  by_cases h1 : frameCount n bytes.length = 1
  · have hl : bytes.length = 1 := by simp only [frameCount] at h1; omega
    rw [h1, decodeFrame_one, decodeFrame_one, storedFrame_getD (by omega) (by omega), hr 0 (by omega) (by omega)]
  · by_cases h2 : frameCount n bytes.length = 2 * n
    · have hl : bytes.length = 2 * n := by simp only [frameCount] at h2; omega
      rw [h2, decodeFrame_two_n, decodeFrame_two_n]
      congr 1
      refine dutyOperands_congr fun j hj => ?_
      rw [storedFrame_getD (by omega) hj, hr j hj (by omega)]
    · rw [decodeFrame_other h1 h2, decodeFrame_other h1 h2]

/-- DISPATCH of a collected frame runs what its bytes decode to. -/
theorem dispatchState_withFrame {s : State} (h : s.cfg.Valid) (bytes : List Byte) :
    dispatchState (withFrame bytes s) =
      clearFrame (execState
        (decodeFrame s.cfg.n (frameCount s.cfg.n bytes.length) (bytes.take (2 * s.cfg.n))) (withFrame bytes s)) := by
  rw [dispatchState, ← decodeFrame_withFrame h.1 bytes s.fbuf]; rfl

/-- DISPATCH of a collected frame of one byte. -/
theorem dispatchState_one {s : State} (h : s.cfg.Valid) (p : Byte) :
    dispatchState (withFrame [p] s) = clearFrame (setPtr p (withFrame [p] s)) := by
  have := h.1
  rw [dispatchState_withFrame h, show frameCount s.cfg.n [p].length = 1 by simp [frameCount], decodeFrame_one,
    List.take_of_length_le (by simp only [List.length_singleton]; omega)]
  rfl

/-- DISPATCH of a collected frame of `2N` bytes. -/
theorem dispatchState_full {s : State} (h : s.cfg.Valid) {bytes : List Byte} (hl : bytes.length = 2 * s.cfg.n) :
    dispatchState (withFrame bytes s) =
      clearFrame (setAll (dutyOperands s.cfg.n bytes) (withFrame bytes s)) := by
  rw [dispatchState_withFrame h, show frameCount s.cfg.n bytes.length = 2 * s.cfg.n by simp only [frameCount]; omega,
    decodeFrame_two_n, List.take_of_length_le (by omega)]
  rfl

/-- DISPATCH of a collected frame of any other length. -/
theorem dispatchState_other {s : State} (h : s.cfg.Valid) {bytes : List Byte} (h1 : bytes.length ≠ 1)
    (h2 : bytes.length ≠ 2 * s.cfg.n) :
    dispatchState (withFrame bytes s) = clearFrame (withFrame bytes s) := by
  have := h.1
  rw [dispatchState_withFrame h, decodeFrame_other (by simp only [frameCount]; omega) (by simp only [frameCount]; omega)]
  rfl

end Sys2Proof.Machine
end

