-- ==== Sys2Proof/Laws/PerInstr.lean ====
section
/-! SUPPORT. A statement about every operation as syntax, one lemma per constructor: the encoder writes a code that selects
some operation (spec/30_encoding.md R88, R90). -/

namespace Sys2Proof.Laws

/-- The decoder rejects no code the encoder writes for a well-formed operation. -/
def EncodeSelects.Statement (i : Instr) : Prop :=
  ∀ cfg : Config, cfg.Valid → i.wellFormed cfg = true → ∃ j, decode cfg (encode cfg i) = .instr j

theorem EncodeSelects.collect (b : Byte) : EncodeSelects.Statement (.collect b) := fun _ h _ =>
  ⟨_, decode_data h b⟩

theorem EncodeSelects.setptr (p : Byte) : EncodeSelects.Statement (.setptr p) := fun _ h _ =>
  ⟨_, decode_frame h (List.cons_ne_nil p [])⟩

theorem EncodeSelects.wrduty (v : List Duty) : EncodeSelects.Statement (.wrduty v) := fun cfg h hw => by
  refine ⟨_, decode_frame h fun he => ?_⟩
  have hl : 2 * v.length = 0 := by rw [← dutyBytes_length, he]; rfl
  have hn : v.length = cfg.n := by simpa [Instr.wellFormed] using hw
  have := h.1
  omega

theorem EncodeSelects.discard : EncodeSelects.Statement .discard := fun _ h _ =>
  ⟨_, decode_frame h (by simp)⟩

theorem EncodeSelects.read : EncodeSelects.Statement .read := fun _ h _ => ⟨_, decode_service h true⟩

theorem EncodeSelects.noread : EncodeSelects.Statement .noread := fun _ h _ => ⟨_, decode_service h false⟩

theorem EncodeSelects.cancel : EncodeSelects.Statement .cancel := fun _ h _ => ⟨_, decode_control h rfl⟩

theorem EncodeSelects.reset : EncodeSelects.Statement .reset := fun _ h _ => ⟨_, decode_control h rfl⟩

end Sys2Proof.Laws
end

