-- ==== Sys2Proof/Tests/Slice0.lean ====
section
/-! SUPPORT. Tests: the well-formedness smoke, decoding from words written out from the spec's encodings, one cycle per
operation from the vectors of spec/95_test_vectors.md, and for every obligation with hypotheses a state that meets them. -/

namespace Sys2Proof.Tests

open Sys2Proof.Machine

/-- `N = 2`, `DEVICE_ID = 0x10`, DRAIN: the conventions of spec/95_test_vectors.md. -/
def two : Config := { n := 2, deviceId := 0x10, i2cAddr := 0x08, framing := .drain }

/-- The same block in EOT. -/
def twoEot : Config := { two with framing := .eot }

/-- The largest block, `N = 127`. -/
def most : Config := { two with n := 127 }

/-- A RUNNING block with `N = 2`, a pointer, two duties and the coming inputs. -/
def blockAt (c : Config) (p : Byte) (d0 d1 : Duty) (inputs : List CycleInput) : State :=
  { State.ofConfig c with ptr := p, duty := [d0, d1], inputs := inputs }

/-- What a test compares of a next state. -/
structure Seen where
  ptr : Byte
  duty : List Duty
  flen : Nat
  run : RunState
  tx : Option Byte
  dutyWe : Bool
deriving DecidableEq, Repr

def seen : Host.Outcome State Fault Refusal → Option Seen
  | .next s => some ⟨s.ptr, s.duty, s.flen, s.run, s.tx, s.dutyWe⟩
  | .fault _ => none
  | .refused _ => none

/-- A block's state from its decidable parts. -/
theorem invOf {s : State} (h : s.cfg.Valid ∧ s.duty.length = s.cfg.n ∧ s.fbuf.length = 2 * s.cfg.n ∧
    s.flen ≤ 2 * s.cfg.n + 1 ∧ (s.cfg.framing = .drain → s.flen = 0)) : s.Inv :=
  ⟨h.1, h.2.1, h.2.2.1, h.2.2.2.1, h.2.2.2.2⟩

theorem readyOf {s : State} {inp : CycleInput} (hi : s.Inv)
    (h : s.run = .running ∧ s.flen = 0 ∧ nextInput s = inp) : s.ReadyFor inp :=
  ⟨hi, h.1, h.2.1, h.2.2⟩

/-! ### Well-formedness -/

theorem test_wellFormed_refuses_short_wrduty : Instr.wellFormed two (.wrduty [7#16]) = false := by decide
theorem test_wellFormed_refuses_long_wrduty : Instr.wellFormed two (.wrduty [1#16, 2#16, 3#16]) = false := by decide
theorem test_wellFormed_accepts_wrduty : Instr.wellFormed two (.wrduty [1#16, 2#16]) = true := by decide
theorem test_config_refuses_no_channel : ¬({ two with n := 0 } : Config).Valid := by decide
theorem test_config_refuses_128_channels : ¬({ two with n := 128 } : Config).Valid := by decide

/-! ### Decoding: codes written out from R80 to R90 -/

theorem test_decode_collect : decode two (.token (.data 0b10101011#8)) = .instr (.collect 0xAB#8) := by decide
theorem test_decode_endMark : decode twoEot (.token .endMark) = .rejected .endToken := by decide
-- 95_test_vectors.md S6, cycles 1 to 3
theorem test_decode_setptr : decode two (.frame [0b00010000#8]) = .instr (.setptr 16#8) := by decide
theorem test_decode_wrduty :
    decode two (.frame [0b00000000#8, 0b01100100#8, 0b11111111#8, 0b11111111#8]) =
      .instr (.wrduty [100#16, 65535#16]) := by decide
theorem test_decode_discard_short : decode two (.frame [0x01#8, 0x2C#8]) = .instr .discard := by decide
-- V-DISCARD: the address-prefixed frame; V-DISPATCH: the empty frame
theorem test_decode_discard_long :
    decode two (.frame [0x02#8, 0x00#8, 0x64#8, 0xFF#8, 0xFF#8]) = .instr .discard := by decide
theorem test_decode_empty_eot : decode twoEot (.frame []) = .instr .discard := by decide
theorem test_decode_empty_drain : decode two (.frame []) = .rejected .emptyFrame := by decide
theorem test_decode_read : decode two (.service true) = .instr .read := by decide
theorem test_decode_noread : decode two (.service false) = .instr .noread := by decide
theorem test_decode_cancel : decode two (.control false .running true) = .instr .cancel := by decide
theorem test_decode_reset_wins : decode two (.control true .running true) = .instr .reset := by decide
theorem test_decode_no_control : decode two (.control false .stopped true) = .rejected .noControl := by decide
theorem test_decode_bad_config : decode { two with n := 0 } (.frame [1#8]) = .rejected .badConfiguration := by decide
-- the table's numbering: the first byte in bits 7..0
theorem test_decodeTableWord_wrduty : decodeTableWord 32 0xFFFF6400 = some (.wrduty [100#16, 65535#16]) := by decide
theorem test_decodeTableWord_setptr : decodeTableWord 8 0x10 = some (.setptr 16#8) := by decide
theorem test_fetchWord_runs :
    seen (step (State.reset.withFetchWord 32 0xFFFF6400)) = some ⟨0, [100, 65535], 0, .running, none, true⟩ := by decide

/-! ### One operation or one cycle, expected values from 95_test_vectors.md -/

-- V-COLLECT: flen 1, DATA 0xCD; flen 5, DATA 0x22
theorem test_collect_second_byte :
    (match exec (.collect 0xCD) { State.ofConfig twoEot with fbuf := [0xAB, 0, 0, 0], flen := 1 } with
     | .next s => (s.fbuf.take 2, s.flen)
     | _ => ([], 0)) = ([0xAB, 0xCD], 2) := by decide
theorem test_collect_saturates :
    (match exec (.collect 0x22) { State.ofConfig twoEot with fbuf := [1, 2, 3, 4], flen := 5 } with
     | .next s => (s.fbuf, s.flen)
     | _ => ([], 0)) = ([1, 2, 3, 4], 5) := by decide
-- V-SETPTR, V-CYCLE
theorem test_setptr_beyond_map :
    seen (step (blockAt two 9 7 9 [writeCycle .drain [0xFF]])) = some ⟨255, [7, 9], 0, .running, none, false⟩ := by decide
theorem test_setptr_then_read :
    seen (step (blockAt two 2 0x1234 0xABCD ((ScriptLine.writeRead [3]).cycles .drain))) =
      some ⟨4, [0x1234, 0xABCD], 0, .running, some 0x34, false⟩ := by decide
-- V-WRDUTY, V-CYCLE
theorem test_wrduty_big_endian :
    seen (step (blockAt two 3 7 9 [writeCycle .drain [0x12, 0x34, 0xAB, 0xCD]])) =
      some ⟨3, [4660, 43981], 0, .running, none, true⟩ := by decide
theorem test_wrduty_then_read :
    seen (step (blockAt two 2 0x1234 0xABCD ((ScriptLine.writeRead [0, 0x64, 0xFF, 0xFF]).cycles .drain))) =
      some ⟨3, [100, 65535], 0, .running, some 0, true⟩ := by decide
-- V-DISCARD, and V-FRAME: DRAIN, [05, END, 07] is one frame of length 2
theorem test_discard_keeps_state :
    seen (step (blockAt two 3 7 9 [writeCycle .drain [1, 2, 3]])) = some ⟨3, [7, 9], 0, .running, none, false⟩ := by decide
theorem test_discard_drain_ignores_end :
    seen (step (blockAt two 3 7 9 [CycleInput.plain [.data 5, .endMark, .data 7] false])) =
      some ⟨3, [7, 9], 0, .running, none, false⟩ := by decide
-- V-READ: ptr = L - 1; ptr = 255
theorem test_read_last_byte :
    seen (step (blockAt two 5 0x1234 0xABCD [readCycle])) =
      some ⟨6, [0x1234, 0xABCD], 0, .running, some 0xCD, false⟩ := by decide
theorem test_read_wraps :
    seen (step (blockAt two 255 0x1234 0xABCD [readCycle])) =
      some ⟨0, [0x1234, 0xABCD], 0, .running, some 0, false⟩ := by decide
-- V-NOREAD; V-FRAME: EOT, [01, END, 02] leaves a frame open
theorem test_noread_sends_nothing :
    seen (step { blockAt two 5 7 9 [CycleInput.quiet] with tx := some 1, dutyWe := true }) =
      some ⟨5, [7, 9], 0, .running, none, false⟩ := by decide
theorem test_noread_eot_open_frame :
    seen (step (blockAt twoEot 5 7 9 [CycleInput.plain [.data 1, .endMark, .data 2] false])) =
      some ⟨1, [7, 9], 1, .running, none, false⟩ := by decide
-- V-CANCEL
theorem test_cancel_drops_frame :
    seen (step { blockAt twoEot 4 7 9 (ScriptLine.cancel.cycles .eot) with flen := 2, fbuf := [0, 0x64, 0, 0] }) =
      some ⟨4, [7, 9], 0, .stopped, none, false⟩ := by decide
theorem test_stopped_serves_nothing :
    seen (step { blockAt two 4 100 65535 [readCycle] with run := .stopped }) =
      some ⟨4, [100, 65535], 0, .stopped, none, false⟩ := by decide
-- V-RESET
theorem test_reset_from_stopped :
    seen (step { blockAt two 7 100 65535 (ScriptLine.reset.cycles .drain) with run := .stopped }) =
      some ⟨0, [0, 0], 0, .running, none, false⟩ := by decide
theorem test_reset_wins :
    seen (step (blockAt two 7 0 0 [{ rx := [.data 3], rd := true, cancel := true, rst := true }])) =
      some ⟨0, [0, 0], 0, .running, none, false⟩ := by decide

/-! ### Witnesses: for every obligation with hypotheses, values that meet them together, at the boundaries of each clause -/

/-- A DRAIN block between cycles. -/
def idle (p : Byte) (inputs : List CycleInput) : State := blockAt two p 7 9 inputs

/-- An EOT block with a frame of `k` bytes open. -/
def openEot (k : Nat) (inputs : List CycleInput) : State :=
  { blockAt twoEot 3 7 9 inputs with fbuf := [1, 2, 3, 4], flen := k }

theorem idle_inv (p : Byte) (l : List CycleInput) : (idle p l).Inv := 
  invOf ⟨show two.Valid by decide, rfl, rfl, by simp [idle, blockAt, State.ofConfig], fun _ => rfl⟩
theorem openEot_inv {k : Nat} (h : k ≤ 5) (l : List CycleInput) : (openEot k l).Inv :=
  invOf ⟨show twoEot.Valid by decide, rfl, rfl, h, fun e => nomatch e⟩
theorem most_inv (p : Byte) : ({ State.ofConfig most with ptr := p } : State).Inv :=
  invOf ⟨show most.Valid by decide, by simp, by simp, by simp, by simp⟩

theorem witness_CollectStoresAndCounts :
    (idle 0 []).run = .running ∧ CycleInput.quiet.rst = false ∧ CycleInput.quiet.cancel = false := by decide
theorem witness_CollectWritesOneStoredByte :
    ((openEot 0 []).Inv ∧ (openEot 0 []).flen < 2 * 2) ∧ ((openEot 3 []).Inv ∧ (openEot 3 []).flen < 2 * 2) ∧
      ((openEot 4 []).Inv ∧ 2 * 2 ≤ (openEot 4 []).flen) ∧ ((openEot 5 []).Inv ∧ 2 * 2 ≤ (openEot 5 []).flen) :=
  ⟨⟨openEot_inv (by decide) _, by decide⟩, ⟨openEot_inv (by decide) _, by decide⟩,
    ⟨openEot_inv (by decide) _, by decide⟩, ⟨openEot_inv (by decide) _, by decide⟩⟩
theorem witness_SetptrLoadsPointer :
    (idle 0 []).fbuf[0]? = some 0#8 ∧ 2 + 2 * (idle 0 []).cfg.n ≤ (6#8).toNat ∧ 2 + 2 * (idle 0 []).cfg.n ≤ (255#8).toNat := by decide
theorem witness_WrdutyReplacesBank :
    [100#16, 65535#16].length = (idle 0 []).cfg.n ∧ [1#8, 2#8, 3#8, 4#8].length = 2 * 2 ∧ 0 < 2 ∧ 1 < 2 := by decide
theorem witness_DiscardChangesNothing :
    ((openEot 0 []).flen ≠ 1 ∧ (openEot 0 []).flen ≠ 2 * (openEot 0 []).cfg.n) ∧
      ((openEot 2 []).flen ≠ 1 ∧ (openEot 2 []).flen ≠ 2 * (openEot 2 []).cfg.n) ∧
      ((openEot 5 []).flen ≠ 1 ∧ (openEot 5 []).flen ≠ 2 * (openEot 5 []).cfg.n) := by decide
theorem witness_ReadServesMapByte :
    ((idle 5 []).Inv ∧ (idle 5 []).ptr.toNat = 2 * (idle 5 []).cfg.n + 1) ∧
      (({ State.ofConfig most with ptr := 255 } : State).Inv ∧ most.n = 127) ∧
      ((idle 255 []).Inv ∧ (idle 255 []).ptr = 255 ∧ (idle 255 []).cfg.n ≠ 127) :=
  ⟨⟨idle_inv _ _, by decide⟩, ⟨most_inv _, by decide⟩, idle_inv _ _, by decide⟩
theorem witness_NoreadSendsNothing :
    (idle 0 []).cfg.Valid ∧ (idle 0 []).run = .running ∧ (nextInput (idle 0 [])).rst = false ∧
      (nextInput (idle 0 [])).cancel = false ∧ (nextInput (idle 0 [])).rd = false := by decide
theorem witness_CancelStopsAndDropsFrame :
    let s := openEot 2 (ScriptLine.cancel.cycles .eot)
    s.cfg.Valid ∧ (nextInput s).rst = false ∧ (nextInput s).cancel = true ∧ s.run = .running ∧
      ({ s with run := .stopped } : State).run = .stopped := by decide
theorem witness_ResetRestoresStartup :
    (idle 7 (ScriptLine.reset.cycles .drain)).cfg.Valid ∧
      (nextInput (idle 7 (ScriptLine.reset.cycles .drain))).rst = true := by decide
theorem witness_MapReadFollowsLayout :
    (idle 0 []).Inv ∧ (0 < 2 ∧ 1 < 2 ∧ 2 + 2 * 2 ≤ (6#8).toNat ∧ 2 + 2 * 2 ≤ (255#8).toNat) ∧
      (State.ofConfig most).Inv ∧ 126 < most.n :=
  ⟨idle_inv _ _, by decide, most_inv 0, by decide⟩
theorem witness_UnmappedReadGivesZero :
    2 + 2 * (idle 6 []).cfg.n ≤ (idle 6 []).ptr.toNat ∧ 2 + 2 * (idle 255 []).cfg.n ≤ (idle 255 []).ptr.toNat := by decide
theorem witness_MapReadIsSequenceRead : (idle 0 []).Inv ∧ (State.ofConfig most).Inv := ⟨idle_inv _ _, most_inv 0⟩
theorem witness_DutyByteViewBijective : ([] : List Byte).length = 2 * 0 ∧ [1#8, 2#8, 3#8, 4#8].length = 2 * 2 := by decide
theorem witness_DutyFrameAppearsInMap :
    (idle 0 []).cfg.Valid ∧ [1#8, 2#8, 3#8, 4#8].length = 2 * (idle 0 []).cfg.n ∧ 0 < 2 * 2 ∧ 3 < 2 * 2 := by decide
theorem witness_DecodeEncodeAgree :
    two.Valid ∧ Instr.wellFormed two (.wrduty [1#16, 2#16]) = true ∧ Instr.wellFormed two .discard = true := by decide
theorem witness_FrameMeaningIsUnique :
    (decode two (.frame [5#8]) = .instr (.setptr 5#8) ∧ Instr.setptr 5#8 ≠ .discard) ∧
      (decode two (.frame [0#8, 1#8, 0#8, 2#8]) = .instr (.wrduty [1#16, 2#16]) ∧
        Instr.wrduty [1#16, 2#16] ≠ .discard) := by decide
theorem witness_FrameLengthSelects :
    two.Valid ∧ twoEot.framing = .eot ∧ [5#8] ≠ [] ∧ [5#8].length = 1 ∧ [1#8, 2#8, 3#8, 4#8].length = 2 * two.n ∧
      ([] : List Byte).length ≠ 1 ∧ ([] : List Byte).length ≠ 2 * two.n ∧
      [1#8, 2#8, 3#8, 4#8, 5#8].length ≠ 2 * two.n := by decide
theorem witness_StepRunsControlOperation :
    let s := idle 0 (ScriptLine.cancel.cycles .drain)
    let r := { idle 0 (ScriptLine.reset.cycles .drain) with run := .stopped }
    decode s.cfg (.control (nextInput s).rst s.run (nextInput s).cancel) = .instr .cancel ∧
      decode r.cfg (.control (nextInput r).rst r.run (nextInput r).cancel) = .instr .reset := by decide

/-- A DRAIN block about to take one write transaction, with or without a read. -/
theorem idle_ready (p : Byte) (bytes : List Byte) (rd : Bool) :
    (idle p [CycleInput.plain (writeTokens .drain bytes) rd]).ReadyFor
      (CycleInput.plain (writeTokens (idle p []).cfg.framing bytes) rd) :=
  readyOf (idle_inv _ _) ⟨rfl, rfl, rfl⟩

theorem witness_StepRunsDecodedFrame :
    ((idle 0 [CycleInput.plain (writeTokens .drain [5]) true]).ReadyFor
        (CycleInput.plain (writeTokens (idle 0 []).cfg.framing [5]) true) ∧
      decode (idle 0 []).cfg (.frame [5]) = .instr (.setptr 5)) ∧
    ((openEot 0 [CycleInput.plain (writeTokens .eot []) false]).ReadyFor
        (CycleInput.plain (writeTokens (openEot 0 []).cfg.framing []) false) ∧
      decode (openEot 0 []).cfg (.frame []) = .instr .discard) :=
  ⟨⟨idle_ready _ _ _, by decide⟩, readyOf (openEot_inv (by decide) _) ⟨rfl, rfl, rfl⟩, by decide⟩
theorem witness_StepRunsReadService :
    ((idle 5 [readCycle]).Inv ∧ (idle 5 [readCycle]).run = .running ∧
      nextInput (idle 5 [readCycle]) = CycleInput.plain [] true ∧
      decode (idle 5 []).cfg (.service true) = .instr .read) ∧
    (openEot 2 [CycleInput.quiet]).Inv ∧ nextInput (openEot 2 [CycleInput.quiet]) = CycleInput.plain [] false :=
  ⟨⟨idle_inv _ _, by decide⟩, openEot_inv (by decide) _, by decide⟩
theorem witness_FetchedWordRuns :
    (idle 3 []).Inv ∧ (idle 3 []).cfg = Config.board ∧ decodeTableWord 16 0x2C01 = some .discard :=
  ⟨idle_inv _ _, by decide⟩
theorem witness_CycleFollowsPollOrder : (idle 0 []).cfg.Valid := by decide
theorem witness_DispatchAppliesFrame :
    (openEot 1 []).cfg.Valid ∧ (openEot 1 []).fbuf.length = 2 * (openEot 1 []).cfg.n ∧ (openEot 1 []).flen = 1 ∧ (openEot 4 []).flen = 2 * (openEot 4 []).cfg.n ∧
      (openEot 0 []).flen ≠ 1 ∧ (openEot 0 []).flen ≠ 2 * (openEot 0 []).cfg.n ∧
      (openEot 5 []).flen ≠ 2 * (openEot 5 []).cfg.n := by decide
theorem witness_FramerTransitions :
    (idle 0 []).cfg.Valid ∧ (idle 0 []).cfg.framing = .drain ∧ framerState (idle 0 []) = .idle ∧
      framerState { idle 0 [] with flen := 1 } = .collecting ∧ (openEot 0 []).cfg.framing = .eot ∧
      framerState (openEot 0 []) = .idle := by decide
theorem witness_DrainModeDispatchesOnce :
    let s := idle 0 [CycleInput.plain [.endMark] true]
    let t := idle 0 [CycleInput.plain [.data 5, .endMark] false]
    (s.Inv ∧ s.run = .running ∧ s.cfg.framing = .drain ∧ (nextInput s).rst = false ∧ (nextInput s).cancel = false ∧
      dataBytes (nextInput s).rx = []) ∧ (t.Inv ∧ dataBytes (nextInput t).rx ≠ []) :=
  ⟨⟨idle_inv _ _, by decide⟩, idle_inv _ _, by decide⟩
theorem witness_DrainModeIgnoresEndMarks : (idle 0 []).cfg.framing = .drain := by decide
theorem witness_EotDispatchesEachTransaction :
    (openEot 0 []).Inv ∧ (openEot 0 []).cfg.framing = .eot ∧ (openEot 0 []).flen = 0 :=
  ⟨openEot_inv (by decide) _, by decide⟩
theorem witness_EotDispatchesAddressedWrites :
    (openEot 0 []).Inv ∧ (openEot 0 []).cfg.framing = .eot ∧ (openEot 0 []).flen = 0 :=
  ⟨openEot_inv (by decide) _, by decide⟩
theorem witness_EotSplitWriteIsWhole :
    (openEot 0 []).Inv ∧ (openEot 0 []).run = .running ∧ (openEot 0 []).flen = 0 ∧ (openEot 0 []).cfg.framing = .eot :=
  ⟨openEot_inv (by decide) _, by decide⟩
theorem witness_WriteSeenBySameCycleRead :
    (idle 2 [CycleInput.plain (writeTokens .drain [255]) true]).ReadyFor
        (CycleInput.plain (writeTokens (idle 2 []).cfg.framing [255]) true) ∧
    (idle 2 [CycleInput.plain (writeTokens .drain [1, 2, 3, 4]) true]).ReadyFor
        (CycleInput.plain (writeTokens (idle 2 []).cfg.framing [1, 2, 3, 4]) true) ∧
    (idle 5 [CycleInput.plain (writeTokens .drain [1, 2, 3, 4]) true]).ReadyFor
        (CycleInput.plain (writeTokens (idle 5 []).cfg.framing [1, 2, 3, 4]) true) ∧
    (idle 2 []).ptr.toNat = 0 + 2 ∧ (idle 5 []).ptr.toNat = 3 + 2 ∧ 3 < 2 * (idle 5 []).cfg.n :=
  ⟨idle_ready _ _ _, idle_ready _ _ _, idle_ready _ _ _, by decide⟩
theorem witness_StepTotalWhenConfigured :
    (idle 0 []).cfg.Valid ∧ most.Valid ∧ ({ two with n := 1 } : Config).Valid ∧
      ¬(State.ofConfig { two with n := 0 }).cfg.Valid ∧ ¬(State.ofConfig { two with n := 128 }).cfg.Valid := by decide
theorem witness_StepKeepsInvariant : (idle 5 [readCycle]).Inv ∧ ∃ t, step (idle 5 [readCycle]) = .next t :=
  ⟨idle_inv _ _, _, rfl⟩
theorem witness_ResetMeetsInvariant : ({ two with n := 1 } : Config).Valid ∧ most.Valid := by decide
theorem witness_ConfigurationNeverWritten : ∃ t, step (idle 5 [readCycle]) = .next t := ⟨_, rfl⟩
theorem witness_RunStateChanges :
    (∃ t, step (idle 5 (ScriptLine.cancel.cycles .drain)) = .next t) ∧ (idle 5 []).run = .running ∧
      ∃ t, step { idle 5 [readCycle] with run := .stopped } = .next t :=
  ⟨⟨_, rfl⟩, rfl, _, rfl⟩
theorem witness_StoppedCycleIsInert :
    let s : State := { idle 5 [readCycle] with run := .stopped }
    let r : State := { idle 5 (ScriptLine.reset.cycles .drain) with run := .stopped }
    (s.cfg.Valid ∧ s.run = .stopped ∧ (nextInput s).rst = false) ∧
      (r.cfg.Valid ∧ ∃ t, step r = .next t ∧ t.run = .running) :=
  ⟨by decide, by decide, _, rfl, rfl⟩
theorem witness_QuietCycleChangesNothing :
    (openEot 2 [CycleInput.quiet]).Inv ∧ nextInput (openEot 2 [CycleInput.quiet]) = CycleInput.quiet :=
  ⟨openEot_inv (by decide) _, by decide⟩
theorem witness_DutyChangesOnlyByWrduty :
    let s := idle 5 [writeCycle .drain [1, 2, 3, 4]]
    let u := idle 5 [writeCycle .drain [1, 2, 3]]
    (s.Inv ∧ (nextInput s).rst = false ∧ ∃ t, step s = .next t ∧ t.dutyWe = true) ∧
      (u.Inv ∧ ∃ t, step u = .next t ∧ t.dutyWe = false) :=
  ⟨⟨idle_inv _ _, rfl, _, rfl, rfl⟩, idle_inv _ _, _, rfl, rfl⟩
theorem witness_PointerMovesOnlyByRead :
    let s := idle 5 [CycleInput.plain (writeTokens .drain [1, 2]) true]
    s.Inv ∧ s.run = .running ∧ s.cfg.framing = .drain ∧ (nextInput s).rst = false ∧ (nextInput s).cancel = false ∧
      (dataBytes (nextInput s).rx).length ≠ 1 :=
  ⟨idle_inv _ _, by decide⟩
theorem witness_ByteSentExactlyOnRead : ∃ t, step (idle 5 [readCycle]) = .next t ∧ t.tx ≠ none := ⟨_, rfl, by decide⟩
theorem witness_DutyFrameCallsDriverInOrder :
    (idle 5 [CycleInput.plain (writeTokens .drain [1, 2, 3, 4]) true]).ReadyFor
        (CycleInput.plain (writeTokens (idle 5 []).cfg.framing [1, 2, 3, 4]) true) ∧
      [1#8, 2#8, 3#8, 4#8].length = 2 * (idle 5 []).cfg.n :=
  ⟨idle_ready _ _ _, by decide⟩

theorem witness_DutyWriteIdempotent :
    let w := writeCycle .drain [1, 2, 3, 4]
    let s := idle 5 [w, w]
    let r := idle 5 [w, writeCycle .drain [1, 2, 3, 4, 5], w]
    (s.Inv ∧ s.run = .running ∧ s.flen = 0 ∧ [1#8, 2#8, 3#8, 4#8].length = 2 * s.cfg.n ∧
      [1#8, 2#8, 3#8, 4#8, 5#8].length ≠ 1 ∧ [1#8, 2#8, 3#8, 4#8, 5#8].length ≠ 2 * s.cfg.n ∧
      s.inputs = writeCycle s.cfg.framing [1, 2, 3, 4] :: writeCycle s.cfg.framing [1, 2, 3, 4] :: []) ∧
      (r.Inv ∧ r.inputs = writeCycle r.cfg.framing [1, 2, 3, 4] :: writeCycle r.cfg.framing [1, 2, 3, 4, 5] ::
        writeCycle r.cfg.framing [1, 2, 3, 4] :: []) :=
  ⟨⟨idle_inv _ _, by decide⟩, idle_inv _ _, by decide⟩
theorem witness_SequentialReadStreamsMap :
    let s := openEot 2 ((ScriptLine.readTimes 3).cycles .eot)
    s.Inv ∧ s.run = .running ∧ s.inputs = (ScriptLine.readTimes 3).cycles s.cfg.framing ++ [] :=
  ⟨openEot_inv (by decide) _, by decide⟩
theorem witness_WriteThenReadRoundTrip :
    let s := idle 5 (assemble .drain [.write [1, 2, 3, 4], .rseq 2 4])
    s.Inv ∧ s.run = .running ∧ s.flen = 0 ∧ [1#8, 2#8, 3#8, 4#8].length = 2 * s.cfg.n ∧
      s.inputs = assemble s.cfg.framing [.write [1, 2, 3, 4], .rseq 2 (2 * s.cfg.n)] ++ [] :=
  ⟨idle_inv _ _, by decide⟩
theorem witness_SetdutyMacroSetsDuties :
    let s := idle 5 ((ScriptLine.setduty [100, 65535]).cycles .drain)
    s.Inv ∧ s.run = .running ∧ s.flen = 0 ∧ [100#16, 65535#16].length = s.cfg.n ∧
      s.inputs = (ScriptLine.setduty [100, 65535]).cycles s.cfg.framing ++ [] :=
  ⟨idle_inv _ _, by decide⟩
-- V-HAZARD: a 2N-byte write split 1 + 3
theorem witness_SplitDutyWriteKeepsDuties :
    let s := idle 5 [writeCycle .drain [0], writeCycle .drain [0x64, 0xFF, 0xFF]]
    s.Inv ∧ s.run = .running ∧ s.cfg.framing = .drain ∧
      (∀ part ∈ [[0#8], [0x64#8, 0xFF#8, 0xFF#8]], part.length < 2 * s.cfg.n) ∧
      s.inputs = [[0#8], [0x64#8, 0xFF#8, 0xFF#8]].map (writeCycle .drain) ++ [] :=
  ⟨idle_inv _ _, by decide⟩

/-- A DRAIN block of one channel about to take two pointer writes in one drain. -/
def oneChannel (inputs : List CycleInput) : State := { State.ofConfig { two with n := 1 } with inputs := inputs }

/-- The DRAIN block about to take the given write transactions in one drain. -/
theorem merged_ready {s : State} (hi : s.Inv) (writes : List (List Byte)) (rd : Bool)
    (h : s.run = .running ∧ s.flen = 0) :
    ({ s with inputs := [CycleInput.plain (writes.flatMap (writeTokens .drain)) rd] } : State).ReadyFor
      (CycleInput.plain (writes.flatMap (writeTokens .drain)) rd) :=
  readyOf ⟨hi.config, hi.dutyCount, hi.storage, hi.counter, hi.drainIdle⟩ ⟨h.1, h.2, rfl⟩

-- V-HAZARD: merged writes, N = 2 and N = 1
theorem witness_MergedWritesBecomeOneFrame :
    (idle 5 []).cfg.framing = .drain ∧ (oneChannel []).cfg.framing = .drain ∧
    (∀ writes ∈ [[], [[]], [[5#8]], [[0#8], [1#8, 0#8, 2#8]], [[2#8], [0#8, 1#8, 0#8, 2#8]], [[5#8], [7#8]]],
      ({ idle 5 [] with inputs := [CycleInput.plain (writes.flatMap (writeTokens .drain)) true] } : State).ReadyFor
        (CycleInput.plain (writes.flatMap (writeTokens .drain)) true)) ∧
    [[0#8], [1#8, 0#8, 2#8]].flatten.length = 2 * (idle 5 []).cfg.n ∧
    [[5#8], [7#8]].flatten.length ≠ 2 * (idle 5 []).cfg.n ∧ (oneChannel []).cfg.n = 1 ∧
    ({ oneChannel [] with inputs := [CycleInput.plain ([[5#8], [7#8]].flatMap (writeTokens .drain)) false] } :
      State).ReadyFor (CycleInput.plain ([[5#8], [7#8]].flatMap (writeTokens .drain)) false) :=
  ⟨rfl, rfl, fun w _ => merged_ready (idle_inv _ _) w true ⟨rfl, rfl⟩, rfl, by decide, rfl,
    merged_ready (invOf (by decide)) _ false ⟨rfl, rfl⟩⟩
theorem witness_PrefixedDutyWriteDiscarded :
    [1#8, 2#8, 3#8, 4#8].length = 2 * (idle 5 []).cfg.n ∧
      (idle 5 [writeCycle .drain [2, 1, 2, 3, 4]]).ReadyFor (writeCycle (idle 5 []).cfg.framing [2, 1, 2, 3, 4]) ∧
      (openEot 0 [writeCycle .eot [2, 1, 2, 3, 4]]).ReadyFor (writeCycle (openEot 0 []).cfg.framing [2, 1, 2, 3, 4]) :=
  ⟨rfl, readyOf (idle_inv _ _) ⟨rfl, rfl, rfl⟩, readyOf (openEot_inv (by decide) _) ⟨rfl, rfl, rfl⟩⟩
theorem witness_ReadAcrossWriteIsTorn :
    let s := idle 4 (assemble .drain [.readTimes 1, .write [1, 2, 3, 4], .readTimes 1])
    s.Inv ∧ s.run = .running ∧ s.flen = 0 ∧ 1 < s.cfg.n ∧ s.ptr.toNat = 2 + 2 * 1 ∧
      [1#8, 2#8, 3#8, 4#8].length = 2 * s.cfg.n ∧
      s.inputs = assemble s.cfg.framing [.readTimes 1, .write [1, 2, 3, 4], .readTimes 1] ++ [] :=
  ⟨idle_inv _ _, by decide⟩
theorem witness_BoundedFrameMatchesUnbounded :
    (idle 5 []).Inv ∧ (idle 5 []).flen = 0 ∧ [1#8, 2#8, 3#8, 4#8].length ≤ 2 * (idle 5 []).cfg.n ∧
      2 * (idle 5 []).cfg.n < [1#8, 2#8, 3#8, 4#8, 5#8].length :=
  ⟨idle_inv _ _, by decide⟩
theorem witness_BlockRefinesReference :
    two.Valid ∧ (openEot 2 []).Inv ∧
      Reference.Represents (openEot 2 [])
        { Reference.Ref.start twoEot [] with ptr := 3, duty := [7, 9], frame := [1, 2] } :=
  ⟨by decide, openEot_inv (by decide) _, ⟨rfl, rfl, rfl, rfl, rfl, rfl, rfl, rfl, rfl, rfl⟩⟩
theorem witness_UnreadStorageIsUnobservable :
    (openEot 2 []).cfg.Valid ∧ (openEot 2 []).AgreeOnFrame { openEot 2 [] with fbuf := [1, 2, 9, 9] } :=
  ⟨by decide, ⟨rfl, rfl, by decide⟩⟩
theorem witness_OtherDevicesTrafficInvisible : ({ addr := 0x09, bytes := [5] } : BusWrite).addr ≠ two.i2cAddr := by decide

end Sys2Proof.Tests
end

/-! The invariant of the block's state: O33 (every step keeps it) and O34 (reset meets it). -/

namespace Sys2Proof.Machine

/-! ### The shape of the state inside a cycle -/

/-- The part of the invariant that every operation of a cycle keeps. What `State.Inv` has besides, that no frame is open in
DRAIN, holds at cycle boundaries only (R122): a COLLECT opens a frame, and the end of the drain closes it. -/
structure State.Shape (s : State) : Prop where
  config : s.cfg.Valid
  dutyCount : s.duty.length = s.cfg.n
  storage : s.fbuf.length = 2 * s.cfg.n
  counter : s.flen ≤ 2 * s.cfg.n + 1

theorem State.inv_iff_shape {s : State} : s.Inv ↔ s.Shape ∧ (s.cfg.framing = .drain → s.flen = 0) := by
  constructor
  · rintro ⟨hc, hd, hb, hf, hi⟩
    exact ⟨⟨hc, hd, hb, hf⟩, hi⟩
  · rintro ⟨⟨hc, hd, hb, hf⟩, hi⟩
    exact ⟨hc, hd, hb, hf, hi⟩

/-- With no frame open the shape is all of the invariant. -/
theorem State.Shape.inv_of_idle {s : State} (h : s.Shape) (h0 : s.flen = 0) : s.Inv :=
  State.inv_iff_shape.mpr ⟨h, fun _ => h0⟩

theorem cycleStart_inv {s : State} (h : s.Inv) : (cycleStart s).Inv :=
  ⟨h.config, h.dutyCount, h.storage, h.counter, h.drainIdle⟩

/-! ### The operations -/

/-- What a frame selects carries `N` values if it is a WRDUTY (R87, R101). -/
theorem decodeFrame_wellFormed (cfg : Config) (flen : Nat) (fbuf : List Byte) :
    (decodeFrame cfg.n flen fbuf).wellFormed cfg = true := by
  unfold decodeFrame
  split
  · rfl
  · split
    · simp [Instr.wellFormed]
    · rfl

/-- What the read service selects has no operand. -/
theorem decodeService_wellFormed (cfg : Config) (rd : Bool) : (decodeService rd).wellFormed cfg = true := by
  cases rd <;> rfl

theorem clearFrame_shape {s : State} (h : s.Shape) : (clearFrame s).Shape :=
  ⟨h.config, h.dutyCount, h.storage, Nat.zero_le _⟩

/-- Every well-formed operation keeps the shape; WRDUTY is the one that needs its operands counted. -/
theorem execState_shape {i : Instr} {s : State} (hi : i.wellFormed s.cfg = true) (h : s.Shape) :
    (execState i s).Shape := by
  obtain ⟨hc, hd, hb, hf⟩ := h
  cases i with
  | collect b => exact ⟨hc, hd, (appendByte_fbuf_length b s).trans hb, Nat.min_le_right _ _⟩
  | setptr p => exact ⟨hc, hd, hb, hf⟩
  | wrduty v =>
    have hv : v.length = s.cfg.n := by simpa [Instr.wellFormed] using hi
    exact ⟨hc, hv, hb, hf⟩
  | discard => exact ⟨hc, hd, hb, hf⟩
  | read => exact ⟨hc, hd, hb, hf⟩
  | noread => exact ⟨hc, hd, hb, hf⟩
  | cancel => exact ⟨hc, hd, hb, Nat.zero_le _⟩
  | reset => exact ⟨hc, List.length_replicate, hb, Nat.zero_le _⟩

/-- The read service leaves the frame as it is (R160, R161). -/
theorem serviceState_flen (rd : Bool) (s : State) : (execState (decodeService rd) s).flen = s.flen := by
  cases rd <;> rfl

/-! ### The parts of a cycle -/

theorem dispatchState_shape {s : State} (h : s.Shape) : (dispatchState s).Shape :=
  clearFrame_shape (execState_shape (decodeFrame_wellFormed s.cfg s.flen s.fbuf) h)

theorem tokenState_shape {s : State} (h : s.Shape) (tok : Token) : (tokenState s tok).Shape := by
  cases tok with
  | data b => exact execState_shape (i := .collect b) rfl h
  | endMark =>
    simp only [tokenState]
    split
    · exact dispatchState_shape h
    · exact h

theorem drainState_shape {s : State} (h : s.Shape) (rx : List Token) : (drainState rx s).Shape := by
  induction rx generalizing s with
  | nil => exact h
  | cons tok rest ih => exact ih (tokenState_shape h tok)

/-- The end of the drain closes the frame a DRAIN cycle opened, which makes the shape the invariant again (R121, R122). -/
theorem endState_inv {s : State} (h : s.Shape) : (endState s).Inv := by
  simp only [endState]
  split
  · exact (dispatchState_shape h).inv_of_idle (dispatchState_flen s)
  next hopen => exact State.inv_iff_shape.mpr ⟨h, fun hdrain => by simpa [hdrain] using hopen⟩

theorem serviceState_inv {s : State} (h : s.Inv) (rd : Bool) : (execState (decodeService rd) s).Inv := by
  obtain ⟨hshape, hidle⟩ := State.inv_iff_shape.mp h
  refine State.inv_iff_shape.mpr ⟨execState_shape (decodeService_wellFormed _ rd) hshape, fun hdrain => ?_⟩
  rw [execState_cfg] at hdrain
  rw [serviceState_flen]
  exact hidle hdrain

/-- Parts (a) to (c) of a cycle restore the invariant from the shape alone. -/
theorem activeState_inv (inp : CycleInput) {s : State} (h : s.Shape) : (activeState inp s).Inv :=
  serviceState_inv (endState_inv (drainState_shape h inp.rx)) inp.rd

/-- RESET and CANCEL leave no frame open, a STOPPED cycle changes only outputs and inputs, and an active cycle closes its
own frame (R205). -/
theorem step_inv {s t : State} (h : s.Inv) (hstep : step s = .next t) : t.Inv := by
  have hstart : (cycleStart s).Inv := cycleStart_inv h
  have hshape : (cycleStart s).Shape := (State.inv_iff_shape.mp hstart).1
  obtain ⟨-, ⟨-, rfl⟩ | ⟨-, -, rfl⟩ | ⟨-, -, -, rfl⟩ | ⟨-, -, -, rfl⟩⟩ := step_cases hstep
  · exact (execState_shape (i := .reset) rfl hshape).inv_of_idle rfl
  · exact hstart
  · exact (execState_shape (i := .cancel) rfl hshape).inv_of_idle rfl
  · exact activeState_inv _ hshape

theorem ofConfig_inv {cfg : Config} (h : cfg.Valid) : (State.ofConfig cfg).Inv :=
  State.Shape.inv_of_idle ⟨h, List.length_replicate, List.length_replicate, Nat.zero_le _⟩ rfl

/-! ### The obligations -/

/-- Settles O33: each case of `step_cases` ends in a state that meets the invariant. -/
theorem stepKeepsInvariant : Obligations.StepKeepsInvariant := fun _ _ => step_inv

/-- Settles O34: `State.reset` is the instance of `ofConfig_inv` at the board's configuration. -/
theorem resetMeetsInvariant : Obligations.ResetMeetsInvariant :=
  ⟨ofConfig_inv (by decide), fun _ => ofConfig_inv⟩

end Sys2Proof.Machine

/-! The state family: what each part of a cycle leaves unchanged, and from it O36, O37, O40, O41, O54; the byte view of the
duties, O13; one COLLECT, O2. -/

namespace Sys2Proof

/-! ### The two halves of a duty value -/

/-- A duty value is its high byte and its low byte (R87), the converse of `dutyHi_dutyOf` and `dutyLo_dutyOf`. -/
@[simp] theorem dutyOf_dutyHi_dutyLo (d : Duty) : dutyOf (dutyHi d) (dutyLo d) = d := by
  have hmod : d.toNat / 2 ^ 8 % 2 ^ 8 = d.toNat / 2 ^ 8 := Nat.mod_eq_of_lt (by omega)
  apply BitVec.eq_of_toNat_eq
  simp only [dutyOf, dutyHi, dutyLo, BitVec.toNat_append, BitVec.extractLsb'_toNat, Nat.shiftRight_eq_div_pow, hmod]
  rw [← Nat.shiftLeft_add_eq_or_of_lt (Nat.mod_lt _ (by decide)), Nat.shiftLeft_eq]
  omega

/-- Assembling the byte view of duty values gives them back: each index reads its own two bytes. -/
theorem dutyOperands_dutyBytes (v : List Duty) : dutyOperands v.length (dutyBytes v) = v := by
  refine List.ext_getElem (dutyOperands_length _ _) fun i _ hi => Option.some.inj ?_
  rw [← List.getElem?_eq_getElem, dutyOperands_getElem? _ _ hi, List.getD_eq_getElem?_getD,
    List.getD_eq_getElem?_getD, dutyBytes_even, dutyBytes_odd, List.getElem?_eq_getElem hi]
  simp

/-- The byte view of assembled bytes is the bytes: an even index is a high byte, an odd one a low byte. -/
theorem dutyBytes_dutyOperands {n : Nat} {bytes : List Byte} (h : bytes.length = 2 * n) :
    dutyBytes (dutyOperands n bytes) = bytes := by
  refine List.ext_getElem (by simp [h]) fun j _ hj => Option.some.inj ?_
  rw [← List.getElem?_eq_getElem, ← List.getElem?_eq_getElem]
  obtain ⟨i, rfl | rfl⟩ := Nat.even_or_odd' j
  · rw [dutyBytes_even, dutyOperands_getElem? n bytes (by omega)]
    simp [List.getD_eq_getElem?_getD, hj]
  · rw [dutyBytes_odd, dutyOperands_getElem? n bytes (by omega)]
    simp [List.getD_eq_getElem?_getD, hj]

/-- Settles O13. -/
theorem dutyByteViewBijective : Obligations.DutyByteViewBijective :=
  ⟨dutyOperands_dutyBytes, fun _ _ => dutyBytes_dutyOperands⟩

end Sys2Proof

namespace Sys2Proof.Machine

/-! ### One COLLECT -/

/-- A COLLECT with room puts its byte at the counter (R120). -/
theorem appendByte_fbuf_flen (b : Byte) {s : State} (hroom : s.flen < 2 * s.cfg.n) (hlen : s.flen < s.fbuf.length) :
    (appendByte b s).fbuf[s.flen]? = some b := by
  rw [appendByte_fbuf, if_pos hroom, List.getElem?_set_self hlen]

/-- A COLLECT without room leaves the storage as it is (R120). -/
theorem appendByte_fbuf_full (b : Byte) {s : State} (hfull : 2 * s.cfg.n ≤ s.flen) :
    (appendByte b s).fbuf = s.fbuf := by
  rw [appendByte_fbuf, if_neg (Nat.not_lt.mpr hfull)]

/-- Settles O2. -/
theorem collectWritesOneStoredByte : Obligations.CollectWritesOneStoredByte := by
  intro b s hinv
  refine ⟨appendByte b s, exec_next _ s, fun hroom => ?_, ?_, (appendByte_fbuf_length b s).trans hinv.storage⟩
  · exact appendByte_fbuf_flen b hroom (hinv.storage ▸ hroom)
  · rintro j (hne | hfull)
    · exact appendByte_fbuf_ne b s hne
    · rw [appendByte_fbuf_full b hfull]

/-! ### The configuration -/

@[simp] theorem activeState_cfg (inp : CycleInput) (s : State) : (activeState inp s).cfg = s.cfg := by
  simp [activeState]

@[simp] theorem cycleState_cfg (inp : CycleInput) (s : State) : (cycleState inp s).cfg = s.cfg := by
  simp only [cycleState]
  split_ifs <;> simp

@[simp] theorem stepState_cfg (s : State) : (stepState s).cfg = s.cfg := by
  simp [stepState]

/-- A step that answers a next state answers `stepState`. -/
theorem eq_stepState {s t : State} (h : step s = .next t) : t = stepState s := by
  rw [step_next (step_cases h).1] at h
  exact (Host.Outcome.next.inj h).symm

theorem mapRead_zero (s : State) : mapRead s 0 = s.cfg.deviceId := rfl

theorem mapRead_one (s : State) : mapRead s 1 = BitVec.ofNat 8 s.cfg.n := rfl

/-- Settles O36: map bytes 0 and 1 read the configuration alone. -/
theorem configurationNeverWritten : Obligations.ConfigurationNeverWritten := by
  intro s t hstep
  obtain rfl := eq_stepState hstep
  rw [mapRead_zero, mapRead_zero, mapRead_one, mapRead_one, stepState_cfg]
  exact ⟨rfl, rfl, rfl⟩

/-! ### DISPATCH -/

/-- What DISPATCH can do, by the frame's length (R85, R127). -/
theorem dispatchState_cases (s : State) :
    (s.flen = 1 ∧ dispatchState s = clearFrame (setPtr (s.fbuf.getD 0 0) s)) ∨
    (s.flen = 2 * s.cfg.n ∧ dispatchState s = clearFrame (setAll (dutyOperands s.cfg.n s.fbuf) s)) ∨
    (s.flen ≠ 1 ∧ s.flen ≠ 2 * s.cfg.n ∧ dispatchState s = clearFrame s) := by
  unfold dispatchState
  by_cases h1 : s.flen = 1
  · exact .inl ⟨h1, by rw [h1, decodeFrame_one]; rfl⟩
  · by_cases h2 : s.flen = 2 * s.cfg.n
    · exact .inr (.inl ⟨h2, by rw [h2, decodeFrame_two_n]; rfl⟩)
    · exact .inr (.inr ⟨h1, h2, by rw [decodeFrame_other h1 h2]; rfl⟩)

/-! ### The run state -/

@[simp] theorem dispatchState_run (s : State) : (dispatchState s).run = s.run := by
  obtain ⟨-, h⟩ | ⟨-, h⟩ | ⟨-, -, h⟩ := dispatchState_cases s <;> simp [h]

@[simp] theorem tokenState_run (s : State) (tok : Token) : (tokenState s tok).run = s.run := by
  cases tok with
  | data b => rfl
  | endMark => simp only [tokenState]; split <;> simp

@[simp] theorem drainState_run (rx : List Token) (s : State) : (drainState rx s).run = s.run := by
  induction rx generalizing s with
  | nil => rfl
  | cons tok rest ih => simp [ih]

@[simp] theorem endState_run (s : State) : (endState s).run = s.run := by
  simp only [endState]; split <;> simp

@[simp] theorem serviceState_run (rd : Bool) (s : State) : (execState (decodeService rd) s).run = s.run := by
  cases rd <;> rfl

/-- Nothing in a cycle without RESET and CANCEL writes the run state (R27). -/
@[simp] theorem activeState_run (inp : CycleInput) (s : State) : (activeState inp s).run = s.run := by
  simp [activeState]

@[simp] theorem execState_reset_run (s : State) : (execState .reset s).run = .running := rfl

@[simp] theorem execState_cancel_run (s : State) : (execState .cancel s).run = .stopped := rfl

/-- Settles O37: of the four kinds of cycle only RESET and CANCEL write the run state, and a STOPPED cycle without RESET
ends in `cycleStart`. -/
theorem runStateChanges : Obligations.RunStateChanges := by
  refine ⟨fun s t hstep => ?_, fun _ => rfl⟩
  obtain ⟨-, ⟨hrst, rfl⟩ | ⟨hrst, hrun, rfl⟩ | ⟨hrst, hrun, hcancel, rfl⟩ | ⟨hrst, hrun, hcancel, rfl⟩⟩ :=
    step_cases hstep
  · simp [hrst]
  · simp [hrst, hrun]
  · simp [hrst, hrun, hcancel]
  · simp [hrst, hrun, hcancel]

/-! ### The data bytes of a drain -/

@[simp] theorem dataBytes_nil : dataBytes [] = [] := rfl

@[simp] theorem dataBytes_cons_data (b : Byte) (rx : List Token) :
    dataBytes (.data b :: rx) = b :: dataBytes rx := rfl

@[simp] theorem dataBytes_cons_endMark (rx : List Token) : dataBytes (.endMark :: rx) = dataBytes rx := rfl

/-- In DRAIN a drain is the COLLECTs of its data bytes: an `END` does nothing (R125). -/
theorem drainState_eq_dataBytes {s : State} (h : s.cfg.framing = .drain) (rx : List Token) :
    drainState rx s = drainState ((dataBytes rx).map Token.data) s := by
  induction rx generalizing s with
  | nil => rfl
  | cons tok rest ih =>
    cases tok with
    | data b => exact ih (s := appendByte b s) h
    | endMark =>
      have hend : tokenState s .endMark = s := by simp [tokenState, h]
      rw [drainState_cons, hend, ih h, dataBytes_cons_endMark]

/-! ### The pointer -/

/-- DISPATCH moves the pointer for a frame of one byte only (R143). -/
theorem dispatchState_ptr {s : State} (h : s.flen ≠ 1) : (dispatchState s).ptr = s.ptr := by
  obtain ⟨h1, -⟩ | ⟨-, h2⟩ | ⟨-, -, h3⟩ := dispatchState_cases s
  · exact absurd h1 h
  · rw [h2]; rfl
  · rw [h3]; rfl

theorem endState_ptr {s : State} (h : s.flen ≠ 1) : (endState s).ptr = s.ptr := by
  simp only [endState]
  split
  · exact dispatchState_ptr h
  · rfl

/-- The read service moves the pointer by one for a READ (R160, R161). -/
theorem serviceState_ptr (rd : Bool) (s : State) :
    (execState (decodeService rd) s).ptr = if rd then s.ptr + 1 else s.ptr := by
  cases rd <;> rfl

/-- A frame counts as one byte only if it is one byte. -/
theorem frameCount_ne_one {n k : Nat} (hn : 1 ≤ n) (hk : k ≠ 1) : frameCount n k ≠ 1 := by
  simp only [frameCount]; omega

/-- Settles O41: the frame DISPATCH meets is the cycle's data bytes, whose count is not 1. -/
theorem pointerMovesOnlyByRead : Obligations.PointerMovesOnlyByRead := by
  intro s hinv hrun hdrain hrst hcancel hcount
  have hframe : drainState (nextInput s).rx (cycleStart s) =
      withFrame (dataBytes (nextInput s).rx) (cycleStart s) := by
    rw [drainState_eq_dataBytes (s := cycleStart s) hdrain]
    exact drainState_data (s := cycleStart s) hinv.storage (hinv.drainIdle hdrain) _
  have hstep : stepState s = activeState (nextInput s) (cycleStart s) := by
    simp [stepState, cycleState, hrst, hrun, hcancel]
  refine ⟨stepState s, step_next hinv.config, ?_⟩
  rw [hstep, activeState, serviceState_ptr, hframe, endState_ptr (frameCount_ne_one hinv.config.1 hcount)]
  rfl

/-! ### The duties -/

/-- What the parts of a cycle keep of its duties (R22, R106). The cycle began with the duties `d`, and `k` counts the bytes of
the frame then open and the data bytes drained so far. -/
structure State.DutyHeld (d : List Duty) (k : Nat) (s : State) : Prop where
  kept : s.dutyWe = false → s.duty = d ∧ s.driverCalls = []
  counted : s.flen ≤ k
  filled : s.dutyWe = true → 2 * s.cfg.n ≤ k

theorem cycleStart_dutyHeld (s : State) : (cycleStart s).DutyHeld s.duty s.flen :=
  ⟨fun _ => ⟨rfl, rfl⟩, Nat.le_refl _, fun h => absurd h (by simp)⟩

theorem clearFrame_dutyHeld {d : List Duty} {k : Nat} {s : State} (h : s.DutyHeld d k) :
    (clearFrame s).DutyHeld d k :=
  ⟨h.kept, Nat.zero_le _, h.filled⟩

theorem appendByte_dutyHeld {d : List Duty} {k : Nat} {s : State} (h : s.DutyHeld d k) (b : Byte) :
    (appendByte b s).DutyHeld d (k + 1) :=
  ⟨h.kept, (Nat.min_le_left _ _).trans (Nat.succ_le_succ h.counted), fun hwe => (h.filled hwe).trans (Nat.le_succ k)⟩

/-- DISPATCH writes the duties only for a frame of `2N` bytes, and then sets `duty_we`. -/
theorem dispatchState_dutyHeld {d : List Duty} {k : Nat} {s : State} (h : s.DutyHeld d k) :
    (dispatchState s).DutyHeld d k := by
  obtain ⟨-, h1⟩ | ⟨hlen, h2⟩ | ⟨-, -, h3⟩ := dispatchState_cases s
  · rw [h1]; exact ⟨h.kept, Nat.zero_le _, h.filled⟩
  · rw [h2]; exact ⟨fun hwe => absurd hwe (by simp), Nat.zero_le _, fun _ => hlen ▸ h.counted⟩
  · rw [h3]; exact clearFrame_dutyHeld h

theorem drainState_dutyHeld {d : List Duty} {k : Nat} {s : State} (h : s.DutyHeld d k) (rx : List Token) :
    (drainState rx s).DutyHeld d (k + (dataBytes rx).length) := by
  induction rx generalizing s k with
  | nil => exact h
  | cons tok rest ih =>
    cases tok with
    | data b =>
      rw [dataBytes_cons_data, List.length_cons, ← Nat.add_assoc, Nat.add_right_comm]
      exact ih (appendByte_dutyHeld h b)
    | endMark =>
      refine ih ?_
      simp only [tokenState]
      split
      · exact dispatchState_dutyHeld h
      · exact h

theorem endState_dutyHeld {d : List Duty} {k : Nat} {s : State} (h : s.DutyHeld d k) : (endState s).DutyHeld d k := by
  simp only [endState]
  split
  · exact dispatchState_dutyHeld h
  · exact h

theorem serviceState_dutyHeld {d : List Duty} {k : Nat} {s : State} (h : s.DutyHeld d k) (rd : Bool) :
    (execState (decodeService rd) s).DutyHeld d k := by
  cases rd <;> exact ⟨h.kept, h.counted, h.filled⟩

theorem activeState_dutyHeld {d : List Duty} {k : Nat} {s : State} (h : s.DutyHeld d k) (inp : CycleInput) :
    (activeState inp s).DutyHeld d (k + (dataBytes inp.rx).length) :=
  serviceState_dutyHeld (endState_dutyHeld (drainState_dutyHeld h inp.rx)) inp.rd

/-- Settles O40: a STOPPED or cancelled cycle leaves duties and outputs as `cycleStart` has them, and an active one ends
with `DutyHeld`. -/
theorem dutyChangesOnlyByWrduty : Obligations.DutyChangesOnlyByWrduty := by
  intro s t _ hstep hrst
  obtain ⟨-, ⟨hrst', -⟩ | ⟨-, -, rfl⟩ | ⟨-, -, -, rfl⟩ | ⟨-, hrun, hcancel, rfl⟩⟩ := step_cases hstep
  · exact absurd (hrst.symm.trans hrst') (by decide)
  · exact ⟨fun _ => ⟨rfl, rfl⟩, fun hwe => absurd hwe (by simp)⟩
  · exact ⟨fun _ => ⟨rfl, rfl⟩, fun hwe => absurd hwe (by simp [execState])⟩
  · have hheld := activeState_dutyHeld (cycleStart_dutyHeld s) (nextInput s)
    exact ⟨hheld.kept, fun hwe => ⟨hrun, hcancel, by simpa using hheld.filled hwe⟩⟩

/-! ### The unread part of the frame storage -/

/-- Agreement, with the second state named by its storage. -/
theorem State.agreeOnFrame_iff {s t : State} :
    s.AgreeOnFrame t ↔ ∃ f : List Byte, t = { s with fbuf := f } ∧ s.fbuf.length = f.length ∧
      ∀ j, j < min s.flen (2 * s.cfg.n) → s.fbuf[j]? = f[j]? := by
  constructor
  · rintro ⟨hrest, hlen, hframe⟩
    exact ⟨t.fbuf, hrest.symm, hlen, hframe⟩
  · rintro ⟨f, rfl, hlen, hframe⟩
    exact ⟨rfl, hlen, hframe⟩

theorem State.AgreeOnFrame.cfg_eq {s t : State} (h : s.AgreeOnFrame t) : s.cfg = t.cfg := by rw [← h.rest]

theorem State.AgreeOnFrame.flen_eq {s t : State} (h : s.AgreeOnFrame t) : s.flen = t.flen := by rw [← h.rest]

theorem State.AgreeOnFrame.run_eq {s t : State} (h : s.AgreeOnFrame t) : s.run = t.run := by rw [← h.rest]

theorem State.AgreeOnFrame.nextInput_eq {s t : State} (h : s.AgreeOnFrame t) : nextInput s = nextInput t := by
  rw [← h.rest]; rfl

/-- The observation shows no byte of the frame storage (R187). -/
theorem State.AgreeOnFrame.observe_eq {s t : State} (h : s.AgreeOnFrame t) : observe s = observe t := by
  rw [← h.rest]; rfl

/-- A frame's stored bytes are all that its selection and its operands read (R85, R87). -/
theorem decodeFrame_congr {n flen : Nat} {f g : List Byte} (hn : 1 ≤ n)
    (h : ∀ j, j < min flen (2 * n) → f[j]? = g[j]?) : decodeFrame n flen f = decodeFrame n flen g := by
  have hget : ∀ j, j < min flen (2 * n) → f.getD j 0 = g.getD j 0 := fun j hj => by
    rw [List.getD_eq_getElem?_getD, List.getD_eq_getElem?_getD, h j hj]
  by_cases h1 : flen = 1
  · subst h1
    rw [decodeFrame_one, decodeFrame_one, hget 0 (by omega)]
  · by_cases h2 : flen = 2 * n
    · subst h2
      rw [decodeFrame_two_n, decodeFrame_two_n, dutyOperands_congr fun j hj => hget j (by omega)]
    · rw [decodeFrame_other h1 h2, decodeFrame_other h1 h2]

/-- COLLECT writes the same byte at the same index of both storages, which is where the agreement grows by one (R120). -/
theorem appendByte_agree {s t : State} (h : s.AgreeOnFrame t) (b : Byte) :
    (appendByte b s).AgreeOnFrame (appendByte b t) := by
  obtain ⟨f, rfl, hlen, hframe⟩ := State.agreeOnFrame_iff.mp h
  refine ⟨rfl, ?_, fun j hj => ?_⟩
  · rw [appendByte_fbuf_length, appendByte_fbuf_length]
    exact hlen
  · simp only [appendByte_flen, appendByte_cfg] at hj
    by_cases hnew : j = s.flen
    · have hroom : s.flen < 2 * s.cfg.n := by omega
      simp [hroom, hnew, List.getElem?_set, hlen]
    · rw [appendByte_fbuf_ne b s hnew, appendByte_fbuf_ne b { s with fbuf := f } hnew]
      exact hframe j (by omega)

/-- No operation but COLLECT touches the frame storage: a frame's operands were read when it was decoded. -/
theorem execState_agree {s t : State} (h : s.AgreeOnFrame t) (i : Instr) :
    (execState i s).AgreeOnFrame (execState i t) := by
  cases i with
  | collect b => exact appendByte_agree h b
  | discard | noread => exact h
  | setptr p | wrduty v | read =>
    obtain ⟨f, rfl, hlen, hframe⟩ := State.agreeOnFrame_iff.mp h
    exact ⟨rfl, hlen, hframe⟩
  | cancel | reset =>
    obtain ⟨f, rfl, hlen, -⟩ := State.agreeOnFrame_iff.mp h
    exact ⟨rfl, hlen, fun j hj => absurd hj (by simp [execState])⟩

theorem clearFrame_agree {s t : State} (h : s.AgreeOnFrame t) : (clearFrame s).AgreeOnFrame (clearFrame t) := by
  obtain ⟨f, rfl, hlen, -⟩ := State.agreeOnFrame_iff.mp h
  exact ⟨rfl, hlen, fun j hj => absurd hj (by simp)⟩

theorem cycleStart_agree {s t : State} (h : s.AgreeOnFrame t) : (cycleStart s).AgreeOnFrame (cycleStart t) := by
  obtain ⟨f, rfl, hlen, hframe⟩ := State.agreeOnFrame_iff.mp h
  exact ⟨rfl, hlen, hframe⟩

/-- DISPATCH selects the same operation with the same operands from both. -/
theorem dispatchState_agree {s t : State} (hv : s.cfg.Valid) (h : s.AgreeOnFrame t) :
    (dispatchState s).AgreeOnFrame (dispatchState t) := by
  unfold dispatchState
  rw [← h.cfg_eq, ← h.flen_eq, ← decodeFrame_congr hv.1 h.frame]
  exact clearFrame_agree (execState_agree h _)

theorem tokenState_agree {s t : State} (hv : s.cfg.Valid) (h : s.AgreeOnFrame t) (tok : Token) :
    (tokenState s tok).AgreeOnFrame (tokenState t tok) := by
  cases tok with
  | data b => exact appendByte_agree h b
  | endMark =>
    simp only [tokenState, ← h.cfg_eq]
    split
    · exact dispatchState_agree hv h
    · exact h

theorem drainState_agree {s t : State} (hv : s.cfg.Valid) (h : s.AgreeOnFrame t) (rx : List Token) :
    (drainState rx s).AgreeOnFrame (drainState rx t) := by
  induction rx generalizing s t with
  | nil => exact h
  | cons tok rest ih => exact ih ((tokenState_cfg s tok).symm ▸ hv) (tokenState_agree hv h tok)

theorem endState_agree {s t : State} (hv : s.cfg.Valid) (h : s.AgreeOnFrame t) :
    (endState s).AgreeOnFrame (endState t) := by
  simp only [endState, ← h.cfg_eq, ← h.flen_eq]
  split
  · exact dispatchState_agree hv h
  · exact h

theorem activeState_agree {s t : State} (hv : s.cfg.Valid) (h : s.AgreeOnFrame t) (inp : CycleInput) :
    (activeState inp s).AgreeOnFrame (activeState inp t) :=
  execState_agree (endState_agree ((drainState_cfg inp.rx s).symm ▸ hv) (drainState_agree hv h inp.rx)) _

theorem cycleState_agree {s t : State} (hv : s.cfg.Valid) (h : s.AgreeOnFrame t) (inp : CycleInput) :
    (cycleState inp s).AgreeOnFrame (cycleState inp t) := by
  simp only [cycleState, ← h.run_eq]
  split_ifs
  · exact execState_agree h .reset
  · exact h
  · exact execState_agree h .cancel
  · exact activeState_agree hv h inp

/-- A step takes states that agree on the frame to states that agree on the frame. -/
theorem stepState_agree {s t : State} (hv : s.cfg.Valid) (h : s.AgreeOnFrame t) :
    (stepState s).AgreeOnFrame (stepState t) := by
  unfold stepState
  rw [← h.nextInput_eq]
  exact cycleState_agree (s := cycleStart s) hv (cycleStart_agree h) _

theorem trace_succ {s : State} (hv : s.cfg.Valid) (k : Nat) :
    trace (k + 1) s = observe (stepState s) :: trace k (stepState s) := by
  simp only [trace, step_next hv]

/-- No run tells states that agree on the frame apart. -/
theorem trace_agree {s t : State} (hv : s.cfg.Valid) (h : s.AgreeOnFrame t) (k : Nat) : trace k s = trace k t := by
  induction k generalizing s t with
  | zero => rfl
  | succ k ih =>
    have hnext := stepState_agree hv h
    rw [trace_succ hv, trace_succ (h.cfg_eq ▸ hv), hnext.observe_eq, ih ((stepState_cfg s).symm ▸ hv) hnext]

/-- Settles O54, by the simulation `stepState_agree` and its runs `trace_agree`. -/
theorem unreadStorageIsUnobservable : Obligations.UnreadStorageIsUnobservable := by
  intro s t hv h
  have hnext := stepState_agree hv h
  exact ⟨⟨stepState s, stepState t, step_next hv, step_next (h.cfg_eq ▸ hv), hnext, hnext.observe_eq⟩,
    trace_agree hv h⟩

end Sys2Proof.Machine

/-! The memory family: the register map address by address (O10, O12) and past its end (O11), the traffic that reaches the
block (O29, O55), and what a READ sees of a write (O31, O51). -/

namespace Sys2Proof.Machine

/-! ### The register map -/

/-- Map address `2 + 2i` holds the high byte of duty `i` (R51). -/
theorem mapRead_high {s : State} {i : Nat} {d : Duty} {a : Byte} (hi : i < s.cfg.n) (hd : s.duty[i]? = some d)
    (ha : a.toNat = 2 + 2 * i) : mapRead s a = dutyHi d := by
  have hindex : (2 + 2 * i - 2) / 2 = i := by omega
  simp only [mapRead, mapLength, ha]
  rw [if_neg (by omega), if_neg (by omega), if_pos (by omega), if_pos (by omega), hindex,
    List.getD_eq_getElem?_getD, hd, Option.getD_some]

/-- Map address `3 + 2i` holds the low byte of duty `i` (R51). -/
theorem mapRead_low {s : State} {i : Nat} {d : Duty} {a : Byte} (hi : i < s.cfg.n) (hd : s.duty[i]? = some d)
    (ha : a.toNat = 3 + 2 * i) : mapRead s a = dutyLo d := by
  have hindex : (3 + 2 * i - 2) / 2 = i := by omega
  simp only [mapRead, mapLength, ha]
  rw [if_neg (by omega), if_neg (by omega), if_pos (by omega), if_neg (by omega), hindex,
    List.getD_eq_getElem?_getD, hd, Option.getD_some]

/-- The map from address 2 on is the byte view of the duty file (R103). -/
theorem some_mapRead {s : State} (hduty : s.duty.length = s.cfg.n) {k : Nat} {a : Byte} (hk : k < 2 * s.cfg.n)
    (ha : a.toNat = k + 2) : some (mapRead s a) = (dutyBytes s.duty)[k]? := by
  obtain ⟨i, rfl | rfl⟩ := Nat.even_or_odd' k
  · have hd : s.duty[i]? = some s.duty[i] := List.getElem?_eq_getElem (by omega)
    rw [dutyBytes_even, hd, mapRead_high (by omega) hd (by omega), Option.map_some]
  · have hd : s.duty[i]? = some s.duty[i] := List.getElem?_eq_getElem (by omega)
    rw [dutyBytes_odd, hd, mapRead_low (by omega) hd (by omega), Option.map_some]

/-- Settles O10. -/
theorem mapReadFollowsLayout : Obligations.MapReadFollowsLayout := by
  intro s hinv
  obtain ⟨-, hn⟩ := hinv.config
  refine ⟨mapRead_zero s, ?_, fun i hi => ?_, fun a ha => mapRead_of_length_le ha⟩
  · rw [mapRead_one, BitVec.toNat_ofNat]
    omega
  · have hd := List.getElem?_eq_getElem (hi.trans_eq hinv.dutyCount.symm)
    exact ⟨_, hd, mapRead_high hi hd (by rw [BitVec.toNat_ofNat]; omega),
      mapRead_low hi hd (by rw [BitVec.toNat_ofNat]; omega)⟩

/-- Settles O12: the two bytes of configuration, the byte view of the duties, and 0 past its end. -/
theorem mapReadIsSequenceRead : Obligations.MapReadIsSequenceRead := by
  intro s hinv
  have hduty := hinv.dutyCount
  have hlen : (registerMap s).length = 2 + 2 * s.cfg.n := hduty ▸ registerMap_length s
  refine ⟨hlen, fun a => ?_⟩
  rw [List.getD_eq_getElem?_getD]
  match ha : a.toNat with
  | 0 => simp [mapRead, ha, registerMap]
  | 1 => simp [mapRead, ha, registerMap]
  | k + 2 =>
    by_cases hk : k < 2 * s.cfg.n
    · have hget : (registerMap s)[k + 2]? = (dutyBytes s.duty)[k]? := rfl
      rw [hget, ← some_mapRead hduty hk ha, Option.getD_some]
    · rw [mapRead_of_length_le (by simp only [mapLength]; omega), List.getElem?_eq_none (by omega), Option.getD_none]

/-! ### READ -/

@[simp] theorem execState_read_ptr (s : State) : (execState .read s).ptr = s.ptr + 1 := rfl

/-- A READ sends the map byte at the pointer, mapped or not (R160, R52). -/
@[simp] theorem execState_read_tx (s : State) : (execState .read s).tx = some (mapRead s s.ptr) :=
  congrArg some (readValue_eq s)

/-- Settles O11. -/
theorem unmappedReadGivesZero : Obligations.UnmappedReadGivesZero := by
  intro s hp
  have hzero : mapRead s s.ptr = 0 := mapRead_of_length_le hp
  refine ⟨hzero, ?_⟩
  rw [exec_next, execState, readValue_eq, hzero]
  rfl

/-! ### One whole write transaction in a drain -/

/-- With no frame open DISPATCH does nothing: the empty frame is a DISCARD (R123). -/
theorem dispatchState_of_idle {s : State} (hv : s.cfg.Valid) (h0 : s.flen = 0) : dispatchState s = s := by
  have hn := hv.1
  obtain ⟨h1, -⟩ | ⟨h2, -⟩ | ⟨-, -, h⟩ := dispatchState_cases s
  · omega
  · omega
  · rw [h, clearFrame, ← h0]

/-- With no frame open the end of the drain is no dispatch point (R121, R124). -/
theorem endState_of_idle {s : State} (h0 : s.flen = 0) : endState s = s := by
  rw [endState, if_neg (by omega)]

/-- In EOT a write transaction is collected whole and its `END` dispatches it (R123). -/
theorem drainState_writeTokens_eot {s : State} (hs : s.Shape) (heot : s.cfg.framing = .eot) (h0 : s.flen = 0)
    (bytes : List Byte) : drainState (writeTokens .eot bytes) s = dispatchState (withFrame bytes s) := by
  rw [drainState_writeTokens, if_pos rfl, drainState_data hs.storage h0]
  exact if_pos heot

/-- In both modes a write transaction that comes whole in one drain is dispatched once, as one frame (R121, R123). -/
theorem endState_writeTokens {s : State} (hs : s.Shape) (h0 : s.flen = 0) (bytes : List Byte) :
    endState (drainState (writeTokens s.cfg.framing bytes) s) = dispatchState (withFrame bytes s) := by
  cases hf : s.cfg.framing with
  | eot => rw [drainState_writeTokens_eot hs hf h0, endState_of_idle (dispatchState_flen _)]
  | drain =>
    rw [drainState_writeTokens, if_neg (by decide), drainState_data hs.storage h0]
    by_cases hopen : 0 < (withFrame bytes s).flen
    · rw [endState, if_pos ⟨hf, hopen⟩]
    · have hidle : (withFrame bytes s).flen = 0 := by omega
      rw [endState_of_idle hidle, dispatchState_of_idle (s := withFrame bytes s) hs.config hidle]

/-! ### The bus traffic that reaches the block -/

theorem deliver_append (cfg : Config) (ws vs : List BusWrite) :
    deliver cfg (ws ++ vs) = deliver cfg ws ++ deliver cfg vs := by
  simp [deliver]

/-- A write to another device yields no token (R54). -/
theorem deliver_cons_of_ne {cfg : Config} {w : BusWrite} (h : w.addr ≠ cfg.i2cAddr) (ws : List BusWrite) :
    deliver cfg (w :: ws) = deliver cfg ws := by
  simp [deliver, h]

/-- Settles O55. -/
theorem otherDevicesTrafficInvisible : Obligations.OtherDevicesTrafficInvisible := by
  intro cfg before after w h
  rw [deliver_append, deliver_append, deliver_cons_of_ne h]

/-- In EOT the drain of write transactions to the block dispatches them one by one: each leaves the next one a block
with no frame open (R123). -/
theorem drain_writeTokens_eot {s : State} (hs : s.Shape) (heot : s.cfg.framing = .eot) (h0 : s.flen = 0)
    (frames : List (List Byte)) : drain (frames.flatMap (writeTokens .eot)) s = dispatchAll frames s := by
  induction frames generalizing s with
  | nil => rfl
  | cons f fs ih =>
    have hf := drainState_writeTokens_eot hs heot h0 f
    have hnext : (dispatchState (withFrame f s)).Shape := hf ▸ drainState_shape hs _
    calc drain ((f :: fs).flatMap (writeTokens .eot)) s
        = drain (fs.flatMap (writeTokens .eot)) (dispatchState (withFrame f s)) := by
          rw [List.flatMap_cons, drain_next, drainState_append, hf, drain_next]
      _ = dispatchAll fs (dispatchState (withFrame f s)) :=
          ih hnext ((congrArg Config.framing (dispatchState_cfg _)).trans heot) (dispatchState_flen _)
      _ = dispatchAll (f :: fs) s := by rw [dispatchAll, dispatch_next, andThen_next]

/-- Settles O29. -/
theorem eotDispatchesAddressedWrites : Obligations.EotDispatchesAddressedWrites := by
  intro s writes hinv heot h0
  rw [← drain_writeTokens_eot (State.inv_iff_shape.mp hinv).1 heot h0, List.flatMap_map, deliver, heot]

/-! ### The cycles of a RUNNING block with no frame open -/

@[simp] theorem stepState_inputs (s : State) : (stepState s).inputs = s.inputs.tail := by
  simp only [stepState, cycleState, activeState]
  split_ifs <;> simp

/-- A cycle without control inputs runs the parts (a) to (c) of R180. -/
theorem stepState_plain {s : State} {rx : List Token} {rd : Bool} (h : s.ReadyFor (.plain rx rd)) :
    stepState s = execState (decodeService rd) (endState (drainState rx (cycleStart s))) := by
  simp [stepState, cycleState, activeState, h.next, h.running]

/-- A read cycle is a READ and nothing else. -/
theorem stepState_read {s : State} (h : s.ReadyFor readCycle) : stepState s = execState .read (cycleStart s) := by
  rw [stepState_plain h, drainState_nil, endState_of_idle (s := cycleStart s) h.idle]
  rfl

/-- A cycle with one write transaction dispatches it before the read service (R181). -/
theorem stepState_write {s : State} {bytes : List Byte} {rd : Bool}
    (h : s.ReadyFor (.plain (writeTokens s.cfg.framing bytes) rd)) :
    stepState s = execState (decodeService rd) (dispatchState (withFrame bytes (cycleStart s))) := by
  have hs : (cycleStart s).Shape := (State.inv_iff_shape.mp (cycleStart_inv h.inv)).1
  rw [stepState_plain h]
  exact congrArg _ (endState_writeTokens hs h.idle bytes)

/-- A pointer write, then the read service (R140, R181). -/
theorem stepState_pointerWrite {s : State} {p : Byte} {rd : Bool}
    (h : s.ReadyFor (.plain (writeTokens s.cfg.framing [p]) rd)) :
    stepState s = execState (decodeService rd) (clearFrame (setPtr p (withFrame [p] (cycleStart s)))) := by
  rw [stepState_write h, dispatchState_one (s := cycleStart s) h.inv.config]

/-- A duty frame, then the read service (R141, R181). -/
theorem stepState_dutyFrame {s : State} {bytes : List Byte} {rd : Bool} (hlen : bytes.length = 2 * s.cfg.n)
    (h : s.ReadyFor (.plain (writeTokens s.cfg.framing bytes) rd)) :
    stepState s = execState (decodeService rd)
      (clearFrame (setAll (dutyOperands s.cfg.n bytes) (withFrame bytes (cycleStart s)))) := by
  rw [stepState_write h, dispatchState_full (s := cycleStart s) h.inv.config hlen]
  rfl

/-- Where the duties are those of a frame, map address `k + 2` holds the frame's byte `k` (R83). -/
theorem some_mapRead_dutyOperands {s : State} {bytes : List Byte} (hlen : bytes.length = 2 * s.cfg.n)
    (hduty : s.duty = dutyOperands s.cfg.n bytes) {k : Nat} {a : Byte} (hk : k < 2 * s.cfg.n) (ha : a.toNat = k + 2) :
    some (mapRead s a) = bytes[k]? := by
  rw [some_mapRead (by rw [hduty, dutyOperands_length]) hk ha, hduty, dutyBytes_dutyOperands hlen]

/-- Settles O31: the READ runs on the state the write's DISPATCH left. -/
theorem writeSeenBySameCycleRead : Obligations.WriteSeenBySameCycleRead := by
  intro s bytes hready
  refine ⟨?_, fun hlen => ?_⟩
  · rintro p rfl
    refine ⟨stepState s, step_next hready.inv.config, ?_⟩
    rw [stepState_pointerWrite hready]
    exact ⟨(execState_read_tx _).trans (congrArg some (mapRead_congr rfl rfl p)), rfl, rfl⟩
  · refine ⟨stepState s, step_next hready.inv.config, ?_⟩
    rw [stepState_dutyFrame hlen hready]
    exact ⟨rfl, rfl, rfl, fun k hk hp =>
      (execState_read_tx _).trans (some_mapRead_dutyOperands (s := clearFrame (setAll _ _)) hlen rfl hk hp)⟩

/-! ### A read torn by a write -/

/-- A cycle that leaves no frame open leaves a RUNNING block ready for the next listed inputs. -/
theorem State.ReadyFor.after_step {s : State} {rx : List Token} {rd : Bool} {inp : CycleInput} {rest : List CycleInput}
    (h : s.ReadyFor (.plain rx rd)) (hinputs : s.inputs.tail = inp :: rest) (hidle : (stepState s).flen = 0) :
    (stepState s).ReadyFor inp where
  inv := step_inv h.inv (step_next h.inv.config)
  running := by
    rw [stepState_plain h, serviceState_run, endState_run, drainState_run, cycleStart_run, h.running]
  idle := hidle
  next := by rw [nextInput, stepState_inputs, hinputs, List.headD_cons]

/-- A read cycle with the pointer at a duty byte sends that byte of the byte view of the duties (R160, R103). -/
theorem stepState_read_tx {s : State} (h : s.ReadyFor readCycle) {k : Nat} (hk : k < 2 * s.cfg.n)
    (hp : s.ptr.toNat = k + 2) : (stepState s).tx = (dutyBytes s.duty)[k]? := by
  rw [stepState_read h, execState_read_tx]
  exact some_mapRead (s := cycleStart s) h.inv.dutyCount hk hp

/-- A duty frame with the pointer at map address `k + 2`, then a READ: nothing is sent, then the frame's byte `k`. -/
theorem stepState_dutyFrame_read_tx {s : State} {bytes : List Byte} {rest : List CycleInput} {k : Nat}
    (h : s.ReadyFor (writeCycle s.cfg.framing bytes)) (hinputs : s.inputs.tail = readCycle :: rest)
    (hlen : bytes.length = 2 * s.cfg.n) (hk : k < 2 * s.cfg.n) (hp : s.ptr.toNat = k + 2) :
    (stepState s).tx = none ∧ (stepState (stepState s)).tx = bytes[k]? := by
  have hwrite := stepState_dutyFrame hlen h
  have hduty : (stepState s).duty = dutyOperands s.cfg.n bytes := by rw [hwrite]; rfl
  have hready : (stepState s).ReadyFor readCycle := h.after_step hinputs (by rw [hwrite]; rfl)
  refine ⟨by rw [hwrite]; rfl, ?_⟩
  rw [stepState_read_tx hready (by rwa [stepState_cfg]) (by rw [hwrite]; exact hp), hduty, dutyBytes_dutyOperands hlen]

/-- Settles O51: the first READ meets the old duties, the second the duties of the frame between. -/
theorem readAcrossWriteIsTorn : Obligations.ReadAcrossWriteIsTorn := by
  intro s i bytes rest hinv hrun h0 hi hp hlen hin
  replace hin : s.inputs = readCycle :: writeCycle s.cfg.framing bytes :: readCycle :: rest := hin
  have hv := hinv.config
  have hcfg := stepState_cfg s
  have hready : s.ReadyFor readCycle := ⟨hinv, hrun, h0, by rw [nextInput, hin, List.headD_cons]⟩
  have hread := stepState_read hready
  have hold : (stepState s).tx = s.duty[i]?.map dutyHi := by
    rw [stepState_read_tx hready (k := 2 * i) (by omega) (by omega), dutyBytes_even]
  have hptr : (stepState s).ptr.toNat = 2 * i + 1 + 2 := by
    rw [hread, execState_read_ptr, cycleStart_ptr]
    bv_omega
  have hready' : (stepState s).ReadyFor (writeCycle (stepState s).cfg.framing bytes) :=
    hready.after_step (by rw [hin, hcfg, List.tail_cons]) (by rw [hread]; exact h0)
  obtain ⟨hnone, hnew⟩ := stepState_dutyFrame_read_tx hready' (by rw [stepState_inputs, hin]; rfl)
    (by rwa [hcfg]) (by rw [hcfg]; omega) hptr
  rw [trace_succ hv, trace_succ (by rwa [hcfg]), trace_succ (by rwa [stepState_cfg, hcfg])]
  simp [observe, trace, hold, hnone, hnew]

end Sys2Proof.Machine

/-! The encoding family: the decoder and the encoder undo each other (O15, O16), what a frame's length selects (O17, O14,
O18), and what whole, split and merged write transactions do to the block (O22, O47, O48, O49, O50). -/

namespace Sys2Proof

/-! ### What the decoder answers on a frame -/

/-- Saturation hides no frame of one byte and makes none (R24). -/
theorem frameCount_eq_one_iff {n k : Nat} (hn : 1 ≤ n) : frameCount n k = 1 ↔ k = 1 := by
  simp only [frameCount]; omega

/-- Saturation hides no frame of `2N` bytes and makes none (R24). -/
theorem frameCount_eq_two_n_iff {n k : Nat} : frameCount n k = 2 * n ↔ k = 2 * n := by
  simp only [frameCount]; omega

/-- Only a valid configuration lets a code select an operation (R215). -/
theorem valid_of_decode {cfg : Config} {c : Code} {i : Instr} (h : decode cfg c = .instr i) : cfg.Valid := by
  by_contra hv
  rw [decode_invalid hv] at h
  cases h

/-- The empty frame of DRAIN selects no operation (R84). -/
theorem decode_frame_nil_drain {cfg : Config} (h : cfg.Valid) (hdrain : cfg.framing = .drain) :
    decode cfg (.frame []) = .rejected .emptyFrame := by
  unfold decode
  rw [if_neg (not_not_intro h)]
  exact if_pos ⟨hdrain, rfl⟩

/-- A frame that a dispatch point can meet, in EOT the empty one too (R84), selects by its saturated length and its stored
bytes. -/
theorem decode_frame_dispatched {cfg : Config} (h : cfg.Valid) {bytes : List Byte}
    (hb : bytes ≠ [] ∨ cfg.framing = .eot) :
    decode cfg (.frame bytes) =
      .instr (decodeFrame cfg.n (frameCount cfg.n bytes.length) (bytes.take (2 * cfg.n))) := by
  unfold decode
  rw [if_neg (not_not_intro h)]
  refine if_neg ?_
  rintro ⟨hdrain, hnil⟩
  obtain hne | heot := hb
  · exact hne hnil
  · exact absurd (hdrain.symm.trans heot) (by decide)

/-- The operation a frame decodes to is the one its saturated length and its stored bytes select at DISPATCH. -/
theorem eq_decodeFrame_of_decode {cfg : Config} {bytes : List Byte} {i : Instr}
    (h : decode cfg (.frame bytes) = .instr i) :
    i = decodeFrame cfg.n (frameCount cfg.n bytes.length) (bytes.take (2 * cfg.n)) := by
  have hv := valid_of_decode h
  have hb : bytes ≠ [] ∨ cfg.framing = .eot := by
    cases hf : cfg.framing with
    | eot => exact .inr rfl
    | drain =>
      refine .inl ?_
      rintro rfl
      rw [decode_frame_nil_drain hv hf] at h
      cases h
  rw [decode_frame_dispatched hv hb] at h
  exact (Decoded.instr.inj h).symm

/-- A frame of one byte is a SETPTR of it (R82). -/
theorem decode_frame_one {cfg : Config} (h : cfg.Valid) (p : Byte) :
    decode cfg (.frame [p]) = .instr (.setptr p) := by
  have hn := h.1
  rw [decode_frame h (List.cons_ne_nil p []), List.length_singleton, (frameCount_eq_one_iff hn).mpr rfl, decodeFrame_one,
    List.take_of_length_le (by rw [List.length_singleton]; omega)]
  rfl

/-- A frame of `2N` bytes is a WRDUTY of the values they assemble to (R83, R87). -/
theorem decode_frame_full {cfg : Config} (h : cfg.Valid) {bytes : List Byte} (hlen : bytes.length = 2 * cfg.n) :
    decode cfg (.frame bytes) = .instr (.wrduty (dutyOperands cfg.n bytes)) := by
  have hn := h.1
  have hne : bytes ≠ [] := List.ne_nil_of_length_pos (by omega)
  rw [decode_frame h hne, frameCount_eq_two_n_iff.mpr hlen, decodeFrame_two_n, List.take_of_length_le hlen.le]

/-- A frame of any other length that a dispatch point meets is a DISCARD (R84, R85). -/
theorem decode_frame_other {cfg : Config} (h : cfg.Valid) {bytes : List Byte} (hb : bytes ≠ [] ∨ cfg.framing = .eot)
    (h1 : bytes.length ≠ 1) (h2 : bytes.length ≠ 2 * cfg.n) : decode cfg (.frame bytes) = .instr .discard := by
  rw [decode_frame_dispatched h hb, decodeFrame_other (mt (frameCount_eq_one_iff h.1).mp h1)
    (mt frameCount_eq_two_n_iff.mp h2)]

/-- What a frame that decodes to an operation can be (R85). -/
theorem decode_frame_cases {cfg : Config} {bytes : List Byte} {i : Instr}
    (h : decode cfg (.frame bytes) = .instr i) :
    (∃ p, bytes = [p] ∧ i = .setptr p) ∨
    (bytes.length = 2 * cfg.n ∧ i = .wrduty (dutyOperands cfg.n bytes)) ∨
    (bytes.length ≠ 1 ∧ bytes.length ≠ 2 * cfg.n ∧ i = .discard) := by
  have hv := valid_of_decode h
  by_cases h1 : bytes.length = 1
  · obtain ⟨p, rfl⟩ := List.length_eq_one_iff.mp h1
    rw [decode_frame_one hv] at h
    exact .inl ⟨p, rfl, (Decoded.instr.inj h).symm⟩
  · by_cases h2 : bytes.length = 2 * cfg.n
    · rw [decode_frame_full hv h2] at h
      exact .inr (.inl ⟨h2, (Decoded.instr.inj h).symm⟩)
    · have hi := eq_decodeFrame_of_decode h
      rw [decodeFrame_other (mt (frameCount_eq_one_iff hv.1).mp h1) (mt frameCount_eq_two_n_iff.mp h2)] at hi
      exact .inr (.inr ⟨h1, h2, hi⟩)

/-! ### The decoder and the encoder -/

theorem Instr.wellFormed_wrduty_iff {cfg : Config} {v : List Duty} :
    (Instr.wrduty v).wellFormed cfg = true ↔ v.length = cfg.n := by
  simp [Instr.wellFormed]

/-- Settles O15: one case per operation; a WRDUTY's bytes assemble to its values again. -/
theorem decodeEncodeAgree : Obligations.DecodeEncodeAgree := by
  intro cfg i hv hw
  cases i with
  | collect b => exact decode_data hv b
  | setptr p => exact decode_frame_one hv p
  | wrduty v =>
    have hlen : v.length = cfg.n := Instr.wellFormed_wrduty_iff.mp hw
    rw [encode, decode_frame_full hv (by rw [dutyBytes_length, hlen]), ← hlen, dutyOperands_dutyBytes]
  | discard =>
    have hn := hv.1
    have hlen : (List.replicate (2 * cfg.n + 1) (0 : Byte)).length = 2 * cfg.n + 1 := List.length_replicate
    exact decode_frame_other hv (.inl (List.ne_nil_of_length_pos (by omega))) (by omega) (by omega)
  | read => exact decode_service hv true
  | noread => exact decode_service hv false
  | cancel => exact decode_control hv rfl
  | reset => exact decode_control hv rfl

/-- Settles O16: the byte view of the assembled values is the frame. -/
theorem frameMeaningIsUnique : Obligations.FrameMeaningIsUnique := by
  intro cfg bytes i hdecode hne
  obtain ⟨p, rfl, rfl⟩ | ⟨hlen, rfl⟩ | ⟨-, -, rfl⟩ := decode_frame_cases hdecode
  · exact ⟨rfl, rfl⟩
  · exact ⟨Instr.wellFormed_wrduty_iff.mpr (dutyOperands_length _ _), congrArg Code.frame (dutyBytes_dutyOperands hlen)⟩
  · exact absurd rfl hne

/-- Settles O17. -/
theorem frameLengthSelects : Obligations.FrameLengthSelects := by
  intro cfg bytes hv hb
  refine ⟨by omega, fun h1 => ?_, fun h2 => ⟨_, decode_frame_full hv h2⟩, decode_frame_other hv hb⟩
  obtain ⟨p, rfl⟩ := List.length_eq_one_iff.mp h1
  exact ⟨p, decode_frame_one hv p⟩

/-- Settles O18: each code by the decoder's rule for its kind; the duty values are then evaluated. -/
theorem sampleCodesDecode : Obligations.SampleCodesDecode := by
  unfold Obligations.SampleCodesDecode
  intro cfg
  have hv : cfg.Valid := by decide
  have hduty : dutyOperands cfg.n [0x00#8, 0x64#8, 0xFF#8, 0xFF#8] = [100#16, 65535#16] := by decide
  exact ⟨decode_data hv _, decode_frame_one hv _, hduty ▸ decode_frame_full hv rfl,
    decode_frame_other hv (.inl (List.cons_ne_nil _ _)) (by decide) (by decide),
    decode_service hv true, decode_service hv false, decode_control hv rfl, decode_control hv rfl⟩

namespace Machine

/-- Settles O14: the WRDUTY writes the values of the frame, and the map shows their bytes. -/
theorem dutyFrameAppearsInMap : Obligations.DutyFrameAppearsInMap := by
  intro s bytes hv hlen
  refine ⟨_, _, decode_frame_full hv hlen, exec_next _ s, fun k hk => ?_⟩
  have haddr : (BitVec.ofNat 8 (k + 2)).toNat = k + 2 := by
    have := hv.2
    rw [BitVec.toNat_ofNat]
    omega
  exact (some_mapRead_dutyOperands (s := setAll (dutyOperands s.cfg.n bytes) s) hlen rfl hk haddr).symm

/-! ### One write transaction in a cycle -/

@[simp] theorem serviceState_duty (rd : Bool) (s : State) : (execState (decodeService rd) s).duty = s.duty := by
  cases rd <;> rfl

@[simp] theorem serviceState_dutyWe (rd : Bool) (s : State) : (execState (decodeService rd) s).dutyWe = s.dutyWe := by
  cases rd <;> rfl

/-- A cycle with one write transaction whose bytes decode to `i` runs `i` on the collected frame, clears the frame and serves
the read (R127, R180). -/
theorem step_decodedFrame {s : State} {bytes : List Byte} {rd : Bool} {i : Instr}
    (h : s.ReadyFor (.plain (writeTokens s.cfg.framing bytes) rd)) (hi : decode s.cfg (.frame bytes) = .instr i) :
    step s = andThen (exec i (withFrame bytes (cycleStart s))) fun t => exec (decodeService rd) { t with flen := 0 } := by
  have hv := h.inv.config
  rw [step_next hv, stepState_write h, dispatchState_withFrame (s := cycleStart s) hv, cycleStart_cfg,
    ← eq_decodeFrame_of_decode hi, exec_next, andThen_next, exec_next]
  rfl

/-- A write transaction of neither 1 nor `2N` bytes does nothing before the read service (R142, R181). -/
theorem stepState_otherWrite {s : State} {bytes : List Byte} {rd : Bool} (h1 : bytes.length ≠ 1)
    (h2 : bytes.length ≠ 2 * s.cfg.n) (h : s.ReadyFor (.plain (writeTokens s.cfg.framing bytes) rd)) :
    stepState s = execState (decodeService rd) (clearFrame (withFrame bytes (cycleStart s))) := by
  rw [stepState_write h, dispatchState_other (s := cycleStart s) h.inv.config h1 h2]

/-- A block that was handed one write transaction is ready for its cycle. -/
theorem presentFrame_ready {s : State} (h : s.Inv) (bytes : List Byte) :
    (presentFrame s bytes).ReadyFor (.plain (writeTokens (presentFrame s bytes).cfg.framing bytes) false) :=
  ⟨⟨h.config, h.dutyCount, h.storage, Nat.zero_le _, fun _ => rfl⟩, rfl, rfl, rfl⟩

theorem decode_of_decodeTableWord {nbits w : Nat} {i : Instr} (h : decodeTableWord nbits w = some i) :
    decode Config.board (.frame (wordBytes (nbits / 8) w)) = .instr i := by
  unfold decodeTableWord at h
  split at h
  · split at h
    next hi => rw [hi, Option.some.inj h]
    next => cases h
  · cases h

/-- Settles O22: the word's bytes are one write transaction, and `step_decodedFrame` runs what they decode to. -/
theorem fetchedWordRuns : Obligations.FetchedWordRuns := by
  intro s nbits w i hinv hcfg hword
  refine step_decodedFrame (presentFrame_ready hinv _) ?_
  rw [presentFrame_cfg, hcfg]
  exact decode_of_decodeTableWord hword

/-- Settles O47: the cycle of a SETDUTY line is a duty frame whose operands are the values it names. -/
theorem setdutyMacroSetsDuties : Obligations.SetdutyMacroSetsDuties := by
  intro s v rest hinv hrun h0 hlen hin
  have hready : s.ReadyFor (writeCycle s.cfg.framing (dutyBytes v)) := ⟨hinv, hrun, h0, by rw [nextInput, hin]; rfl⟩
  have hv : dutyOperands s.cfg.n (dutyBytes v) = v := hlen ▸ dutyOperands_dutyBytes v
  have hwrite := stepState_dutyFrame (by rw [dutyBytes_length, hlen]) hready
  rw [hv] at hwrite
  refine ⟨stepState s, step_next hinv.config, ?_⟩
  rw [hwrite]
  exact ⟨rfl, rfl, rfl, rfl, congrArg List.tail hin⟩

/-- Settles O50: `2N + 1` bytes are neither 1 nor `2N`. -/
theorem prefixedDutyWriteDiscarded : Obligations.PrefixedDutyWriteDiscarded := by
  intro s reg bytes hlen hready
  have hn := hready.inv.config.1
  have hlen' : (reg :: bytes).length = 2 * s.cfg.n + 1 := congrArg (· + 1) hlen
  refine ⟨stepState s, step_next hready.inv.config, ?_⟩
  rw [stepState_otherWrite (by omega) (by omega) hready]
  exact ⟨rfl, rfl, rfl, rfl⟩

/-! ### A write transaction split over several cycles -/

/-- A cycle without control inputs leaves the block RUNNING (R27). -/
theorem State.ReadyFor.stepState_run {s : State} {rx : List Token} {rd : Bool} (h : s.ReadyFor (.plain rx rd)) :
    (stepState s).run = .running := by
  rw [stepState_plain h, serviceState_run, endState_run, drainState_run, cycleStart_run, h.running]

/-- A write of fewer than `2N` bytes moves the pointer if it is one byte long, and shows nothing else (R140, R142). -/
theorem stepState_shortWrite {s : State} {part : List Byte} (hshort : part.length < 2 * s.cfg.n)
    (h : s.ReadyFor (writeCycle s.cfg.framing part)) :
    (stepState s).ptr = (if part.length = 1 then part.headD s.ptr else s.ptr) ∧
      observe (stepState s) = { tx := none, dutyWe := false, dutyOut := s.duty } := by
  by_cases h1 : part.length = 1
  · obtain ⟨p, rfl⟩ := List.length_eq_one_iff.mp h1
    rw [stepState_pointerWrite h]
    exact ⟨rfl, rfl⟩
  · rw [if_neg h1, stepState_otherWrite h1 hshort.ne h]
    exact ⟨rfl, rfl⟩

theorem stepN_succ {s : State} (hv : s.cfg.Valid) (k : Nat) : stepN (k + 1) s = stepN k (stepState s) := by
  rw [stepN, step_next hv, andThen_next]

/-- Settles O48, by induction on the parts: `stepState_shortWrite` for the first, the rest from the state it leaves. -/
theorem splitDutyWriteKeepsDuties : Obligations.SplitDutyWriteKeepsDuties := by
  intro s parts rest hinv hrun hdrain hshort hin
  induction parts generalizing s with
  | nil => exact ⟨s, rfl, rfl, hin, rfl, fun o ho => absurd ho List.not_mem_nil⟩
  | cons part parts ih =>
    have hv := hinv.config
    have hcfg := stepState_cfg s
    obtain ⟨hpart, hparts⟩ := List.forall_mem_cons.mp hshort
    have hready : s.ReadyFor (writeCycle s.cfg.framing part) :=
      ⟨hinv, hrun, hinv.drainIdle hdrain, by rw [nextInput, hin, hdrain]; rfl⟩
    obtain ⟨hptr, hobs⟩ := stepState_shortWrite hpart hready
    have hduty : (stepState s).duty = s.duty := congrArg Obs.dutyOut hobs
    obtain ⟨t, ht, htduty, htin, htptr, htrace⟩ := ih (stepState s) (step_inv hinv (step_next hv)) hready.stepState_run
      (by rwa [hcfg]) (by rwa [hcfg]) (by rw [stepState_inputs, hin]; rfl)
    refine ⟨t, (stepN_succ hv _).trans ht, htduty.trans hduty, htin, ?_, ?_⟩
    · rw [htptr, hptr, List.foldl_cons]
    · rw [List.length_cons, trace_succ hv, List.forall_mem_cons, ← hduty]
      exact ⟨hduty ▸ hobs, htrace⟩

/-! ### Write transactions merged into one drain -/

/-- In DRAIN the transceiver marks no end of a transaction, so several deliver the tokens of one (R236). -/
theorem flatMap_writeTokens_drain (writes : List (List Byte)) :
    writes.flatMap (writeTokens .drain) = writeTokens .drain writes.flatten := by
  have htokens : writeTokens .drain = List.map Token.data := funext fun bytes => List.append_nil _
  rw [htokens, List.map_flatten, List.flatMap_def]

/-- The empty frame is the state with no frame open. -/
theorem withFrame_nil {s : State} (h0 : s.flen = 0) : withFrame [] s = s := by
  have hcount : frameCount s.cfg.n ([] : List Byte).length = s.flen := by simp [frameCount, h0]
  rw [withFrame, storedFrame_nil, hcount]

/-- A pointer write, seen after the read service (R140, R160). -/
theorem stepState_pointerWrite_result {s : State} {p : Byte} {rd : Bool}
    (h : s.ReadyFor (.plain (writeTokens s.cfg.framing [p]) rd)) :
    (stepState s).ptr = (if rd then p + 1 else p) ∧ (stepState s).duty = s.duty ∧ (stepState s).dutyWe = false := by
  rw [stepState_pointerWrite h, serviceState_ptr, serviceState_duty, serviceState_dutyWe]
  exact ⟨rfl, rfl, rfl⟩

/-- A duty frame, seen after the read service (R141, R160). -/
theorem stepState_dutyFrame_result {s : State} {bytes : List Byte} {rd : Bool} (hlen : bytes.length = 2 * s.cfg.n)
    (h : s.ReadyFor (.plain (writeTokens s.cfg.framing bytes) rd)) :
    (stepState s).ptr = (if rd then s.ptr + 1 else s.ptr) ∧ (stepState s).duty = dutyOperands s.cfg.n bytes ∧
      (stepState s).dutyWe = true := by
  rw [stepState_dutyFrame hlen h, serviceState_ptr, serviceState_duty, serviceState_dutyWe]
  exact ⟨rfl, rfl, rfl⟩

/-- A discarded frame, seen after the read service (R142, R160). -/
theorem stepState_otherWrite_result {s : State} {bytes : List Byte} {rd : Bool} (h1 : bytes.length ≠ 1)
    (h2 : bytes.length ≠ 2 * s.cfg.n) (h : s.ReadyFor (.plain (writeTokens s.cfg.framing bytes) rd)) :
    (stepState s).ptr = (if rd then s.ptr + 1 else s.ptr) ∧ (stepState s).duty = s.duty ∧
      (stepState s).dutyWe = false := by
  rw [stepState_otherWrite h1 h2 h, serviceState_ptr, serviceState_duty, serviceState_dutyWe]
  exact ⟨rfl, rfl, rfl⟩

/-- Settles O49: the merged writes are one write transaction of their concatenation, whose length decides. -/
theorem mergedWritesBecomeOneFrame : Obligations.MergedWritesBecomeOneFrame := by
  intro s writes rd hdrain hmerged
  have hv := hmerged.inv.config
  have hready : s.ReadyFor (.plain (writeTokens s.cfg.framing writes.flatten) rd) := by
    rwa [hdrain, ← flatMap_writeTokens_drain]
  have hstep := step_next hv
  refine ⟨fun hnil => ?_, fun _ => ?_, fun p hp => ?_, fun hlen => ⟨_, hstep, stepState_dutyFrame_result hlen hready⟩,
    fun h1 h2 => ⟨_, hstep, stepState_otherWrite_result h1 h2 hready⟩, fun p q hpq => ?_, fun p bytes hpb hlen => ?_⟩
  · have hidle : (cycleStart s).flen = 0 := hmerged.idle
    rw [hstep, stepState_write hready, hnil, withFrame_nil hidle, dispatchState_of_idle (s := cycleStart s) hv hidle,
      service_next]
  · rw [hstep, stepState_write hready, dispatch_next, andThen_next, service_next]
  · rw [hp] at hready
    exact ⟨_, hstep, stepState_pointerWrite_result hready⟩
  · subst hpq
    have hlen : [[p], [q]].flatten.length = 2 := rfl
    by_cases hn : s.cfg.n = 1
    · obtain ⟨hptr, hduty, hwe⟩ := stepState_dutyFrame_result (by omega) hready
      rw [hn] at hduty
      exact ⟨_, hstep, hptr, fun _ => ⟨hduty, hwe⟩, fun hne => absurd hn hne⟩
    · obtain ⟨hptr, hkept⟩ := stepState_otherWrite_result (by omega) (by omega) hready
      exact ⟨_, hstep, hptr, fun h => absurd h hn, fun _ => hkept⟩
  · subst hpb
    have hn := hv.1
    have htotal : [[p], bytes].flatten.length = 2 * s.cfg.n + 1 := by simp [hlen]
    exact ⟨_, hstep, stepState_otherWrite_result (by omega) (by omega) hready⟩

end Machine

end Sys2Proof

/-! The channel bank family: the driver calls of a duty frame, O43. -/

namespace Sys2Proof.Machine

@[simp] theorem serviceState_driverCalls (rd : Bool) (s : State) :
    (execState (decodeService rd) s).driverCalls = s.driverCalls := by
  cases rd <;> rfl

/-- A duty frame calls `set_duty(i, v[i])` for each of its values, and makes no other call in its cycle (R101, R106). -/
theorem stepState_dutyFrame_driverCalls {s : State} {bytes : List Byte} {rd : Bool} (hlen : bytes.length = 2 * s.cfg.n)
    (h : s.ReadyFor (.plain (writeTokens s.cfg.framing bytes) rd)) :
    (stepState s).driverCalls = (List.range s.cfg.n).zip (dutyOperands s.cfg.n bytes) := by
  rw [stepState_dutyFrame hlen h, serviceState_driverCalls, clearFrame_driverCalls, setAll_driverCalls,
    withFrame_driverCalls, cycleStart_driverCalls, List.nil_append, dutyOperands_length]

/-- Settles O43: the calls pair the indices below `N` with the `N` values the frame writes, so the two components of the
pairs are the indices and the duties. -/
theorem dutyFrameCallsDriverInOrder : Obligations.DutyFrameCallsDriverInOrder := by
  intro s bytes rd hready hlen
  obtain ⟨-, hduty, -⟩ := stepState_dutyFrame_result hlen hready
  have hcount : (List.range s.cfg.n).length = (dutyOperands s.cfg.n bytes).length := by
    rw [List.length_range, dutyOperands_length]
  refine ⟨stepState s, step_next hready.inv.config, ?_, ?_⟩
  · rw [stepState_dutyFrame_driverCalls hlen hready, List.map_fst_zip hcount.le]
  · rw [stepState_dutyFrame_driverCalls hlen hready, List.map_snd_zip hcount.ge, hduty]

end Sys2Proof.Machine

/-! The framer family: the bounded frame storage against the unbounded frame (O52), the refinement of the reference machine
(O53), one COLLECT, one DISPATCH and one write transaction (O1, O20, O24, O25), and the dispatch points of the two framing
modes (O26, O27, O28, O30). -/

namespace Sys2Proof.Reference

/-! ### The reference's byte pairs -/

theorem pairs_dutyBytes (v : List Duty) : pairs (dutyBytes v) = v := by
  induction v with
  | nil => rfl
  | cons d v ih => rw [dutyBytes_cons, pairs, ih, dutyOf_dutyHi_dutyLo]

/-- The pairs of a whole `2N`-byte sequence are the operands the block assembles by index (R83, R87). -/
theorem pairs_eq_dutyOperands {n : Nat} {bytes : List Byte} (h : bytes.length = 2 * n) :
    pairs bytes = dutyOperands n bytes := by
  rw [← pairs_dutyBytes (dutyOperands n bytes), dutyBytes_dutyOperands h]

end Sys2Proof.Reference

namespace Sys2Proof.Machine

/-! ### The frame storage holds a byte sequence -/

@[simp] theorem storedFrame_storedFrame (n : Nat) (bytes fbuf : List Byte) :
    storedFrame n bytes (storedFrame n bytes fbuf) = storedFrame n bytes fbuf := by
  simp [storedFrame]

theorem withFrame_withFrame (bytes : List Byte) (s : State) :
    withFrame bytes (withFrame bytes s) = withFrame bytes s := by
  simp [withFrame]

theorem storedFrame_take {n : Nat} {bytes fbuf : List Byte} (h : fbuf.length = 2 * n) :
    (storedFrame n bytes fbuf).take bytes.length = bytes.take (2 * n) := by
  rw [storedFrame, List.take_append, List.take_of_length_le (List.length_take_le' _ _), List.append_right_eq_self,
    List.take_eq_nil_iff, List.drop_eq_nil_iff, List.length_take]
  omega

theorem storedFrame_eq_self_iff {n : Nat} {bytes fbuf : List Byte} (h : fbuf.length = 2 * n) :
    storedFrame n bytes fbuf = fbuf ↔ fbuf.take bytes.length = bytes.take (2 * n) := by
  constructor
  · intro hsame
    rw [← storedFrame_take h, hsame]
  · intro hbytes
    rw [storedFrame, ← hbytes, List.length_take, List.take_eq_take_min, List.take_append_drop]

/-- Collecting `bytes` changes nothing exactly where they are the frame the block holds already: their saturated count and
their first `2N` (R23, R24). -/
theorem withFrame_eq_self_iff {s : State} (h : s.fbuf.length = 2 * s.cfg.n) (bytes : List Byte) :
    withFrame bytes s = s ↔
      s.flen = frameCount s.cfg.n bytes.length ∧ s.fbuf.take bytes.length = bytes.take (2 * s.cfg.n) := by
  rw [← storedFrame_eq_self_iff h]
  constructor
  · intro hsame
    exact ⟨(congrArg State.flen hsame).symm, congrArg State.fbuf hsame⟩
  · rintro ⟨hlen, hbytes⟩
    rw [withFrame, hbytes, ← hlen]

theorem withFrame_flen_pos {bytes : List Byte} (h : bytes ≠ []) (s : State) : 0 < (withFrame bytes s).flen := by
  have hpos := List.length_pos_iff.mpr h
  simp only [withFrame_flen, frameCount]
  omega

/-! ### DISPATCH of a bounded frame -/

/-- SetAll of `N` values calls the driver for the channels `0` to `N-1` (R101, R106). -/
theorem setAll_of_length {v : List Duty} {s : State} (h : v.length = s.cfg.n) :
    setAll v s = { s with
      duty := v
      dutyWe := true
      driverCalls := s.driverCalls ++ (List.range s.cfg.n).zip v } := by
  rw [setAll, h]

/-- DISPATCH of a frame collected in the bounded storage, said by the whole byte sequence (R126). -/
theorem dispatchState_withFrame_unbounded {s : State} (h : s.cfg.Valid) (bytes : List Byte) :
    dispatchState (withFrame bytes s) =
      if bytes.length = 1 then { withFrame bytes s with ptr := bytes.headD 0, flen := 0 }
      else if bytes.length = 2 * s.cfg.n then
        { withFrame bytes s with
          duty := Reference.pairs bytes
          dutyWe := true
          driverCalls := s.driverCalls ++ (List.range s.cfg.n).zip (Reference.pairs bytes)
          flen := 0 }
      else { withFrame bytes s with flen := 0 } := by
  split_ifs with h1 h2
  · obtain ⟨p, rfl⟩ := List.length_eq_one_iff.mp h1
    exact dispatchState_one h p
  · rw [dispatchState_full h h2, setAll_of_length (s := withFrame bytes s) (dutyOperands_length s.cfg.n bytes),
      Reference.pairs_eq_dutyOperands h2]
    rfl
  · exact dispatchState_other h h1 h2

/-- Settles O52: the drain leaves `withFrame bytes s`, and with no frame open in `s` the cleared frame is that of `s`. -/
theorem boundedFrameMatchesUnbounded : Obligations.BoundedFrameMatchesUnbounded := by
  intro s bytes hinv h0
  have hcollect := drainState_data hinv.storage h0 bytes
  refine ⟨withFrame bytes s, (drain_next _ s).trans (congrArg _ hcollect),
    fun hfits => Nat.min_eq_left (Nat.le_succ_of_le hfits), fun hover => Nat.min_eq_right hover, ?_⟩
  rw [dispatch_next, dispatchState_withFrame_unbounded hinv.config, ← h0]
  rfl

/-- Settles O24: the decoder's three cases, each run by its operation. -/
theorem dispatchAppliesFrame : Obligations.DispatchAppliesFrame := by
  intro s _ _
  refine ⟨fun h1 => ?_, fun h2 => ?_, fun h1 h2 => ?_⟩
  · rw [dispatch_next, dispatchState, h1, decodeFrame_one]
    rfl
  · rw [dispatch_next, dispatchState, h2, decodeFrame_two_n, execState, setAll_of_length (dutyOperands_length _ _)]
    rfl
  · rw [dispatch_next, dispatchState, decodeFrame_other h1 h2]
    rfl

end Sys2Proof.Machine

namespace Sys2Proof.Reference

open Sys2Proof.Machine

/-! ### The reference state a state of the block represents -/

/-- The reference state of the block's state `s` with the frame `frame`; `represents_iff` says when `s` represents it. -/
def refOf (frame : List Byte) (s : State) : Ref where
  cfg := s.cfg
  ptr := s.ptr
  duty := s.duty
  frame := frame
  run := s.run
  tx := s.tx
  dutyWe := s.dutyWe
  driverCalls := s.driverCalls
  inputs := s.inputs

@[simp] theorem refOf_frame (frame : List Byte) (s : State) : (refOf frame s).frame = frame := rfl

@[simp] theorem refOf_cfg (frame : List Byte) (s : State) : (refOf frame s).cfg = s.cfg := rfl

/-- A state with the storage of R23 represents the reference states whose frame, collected, would leave it as it is. -/
theorem represents_iff {s : State} {a : Ref} (h : s.fbuf.length = 2 * s.cfg.n) :
    Represents s a ↔ ∃ frame, a = refOf frame s ∧ withFrame frame s = s := by
  constructor
  · rintro ⟨hcfg, hptr, hduty, hrun, htx, hwe, hcalls, hinputs, hlen, hbytes⟩
    refine ⟨a.frame, ?_, (withFrame_eq_self_iff h _).mpr ⟨hcfg ▸ hlen, hcfg ▸ hbytes⟩⟩
    rw [refOf, hcfg, hptr, hduty, hrun, htx, hwe, hcalls, hinputs]
  · rintro ⟨frame, rfl, hframe⟩
    obtain ⟨hlen, hbytes⟩ := (withFrame_eq_self_iff h frame).mp hframe
    exact ⟨rfl, rfl, rfl, rfl, rfl, rfl, rfl, rfl, hlen, hbytes⟩

theorem Represents.flen_pos_iff {s : State} {a : Ref} (h : Represents s a) : 0 < s.flen ↔ a.frame ≠ [] := by
  rw [h.length, ← List.length_pos_iff]
  simp only [frameCount]
  omega

theorem ofConfig_represents (cfg : Config) (inputs : List CycleInput) :
    Represents { State.ofConfig cfg with inputs := inputs } (Ref.start cfg inputs) :=
  (represents_iff List.length_replicate).mpr ⟨[], rfl, withFrame_nil rfl⟩

/-! ### The simulation, part by part of a cycle -/

/-- The reference's dispatch on the full sequence is the block's on what it stored of it (R126). -/
theorem dispatch_refOf {s : State} (h : s.cfg.Valid) (frame : List Byte) :
    dispatch (refOf frame s) = refOf [] (dispatchState (withFrame frame s)) := by
  rw [dispatchState_withFrame_unbounded h, dispatch, refOf_frame, refOf_cfg]
  by_cases h1 : frame.length = 1
  · rw [if_pos h1, if_pos h1]
    rfl
  · by_cases h2 : frame.length = 2 * s.cfg.n
    · rw [if_neg h1, if_pos h2, if_neg h1, if_pos h2]
      rfl
    · rw [if_neg h1, if_neg h2, if_neg h1, if_neg h2]
      rfl

theorem dispatchState_represents {s : State} {a : Ref} (hs : s.Shape) (h : Represents s a) :
    Represents (dispatchState s) (dispatch a) := by
  obtain ⟨frame, rfl, hframe⟩ := (represents_iff hs.storage).mp h
  refine (represents_iff (dispatchState_shape hs).storage).mpr ⟨[], ?_, withFrame_nil (dispatchState_flen s)⟩
  rw [dispatch_refOf hs.config, hframe]

/-- A COLLECT extends the frame by one byte, stored or only counted (R120). -/
theorem appendByte_represents {s : State} {a : Ref} (hs : s.Shape) (h : Represents s a) (b : Byte) :
    Represents (appendByte b s) (takeToken a (.data b)) := by
  obtain ⟨frame, rfl, hframe⟩ := (represents_iff hs.storage).mp h
  refine (represents_iff ((appendByte_fbuf_length b s).trans hs.storage)).mpr ⟨frame ++ [b], rfl, ?_⟩
  have happend : appendByte b s = withFrame (frame ++ [b]) s := by
    rw [← appendByte_withFrame hs.storage, hframe]
  rw [happend, withFrame_withFrame]

theorem tokenState_represents {s : State} {a : Ref} (hs : s.Shape) (h : Represents s a) (tok : Token) :
    Represents (tokenState s tok) (takeToken a tok) := by
  cases tok with
  | data b => exact appendByte_represents hs h b
  | endMark =>
    simp only [tokenState, takeToken, ← h.cfg]
    split
    · exact dispatchState_represents hs h
    · exact h

theorem drainState_represents {s : State} {a : Ref} (hs : s.Shape) (h : Represents s a) (rx : List Token) :
    Represents (drainState rx s) (rx.foldl takeToken a) := by
  induction rx generalizing s a with
  | nil => exact h
  | cons tok rest ih => exact ih (tokenState_shape hs tok) (tokenState_represents hs h tok)

theorem endState_represents {s : State} {a : Ref} (hs : s.Shape) (h : Represents s a) :
    Represents (endState s) (endOfDrain a) := by
  simp only [endState, endOfDrain, ← h.cfg, h.flen_pos_iff]
  split
  · exact dispatchState_represents hs h
  · exact h

/-- READ by address is the reference's read of the sequence (O12), and its pointer wraps as modulo 256 (R160). -/
theorem serviceState_represents {s : State} {a : Ref} (hs : s.Inv) (h : Represents s a) (rd : Bool) :
    Represents (execState (decodeService rd) s) (service rd a) := by
  cases rd with
  | false => exact h
  | true =>
    have hbyte : readValue s = (registerMap s).getD s.ptr.toNat 0 :=
      (readValue_eq s).trans ((mapReadIsSequenceRead s hs).2 s.ptr)
    have hnext : s.ptr + 1 = BitVec.ofNat 8 ((s.ptr.toNat + 1) % 256) := by bv_omega
    have hread : execState .read s =
        setPtr (BitVec.ofNat 8 ((s.ptr.toNat + 1) % 256)) (send ((registerMap s).getD s.ptr.toNat 0) s) := by
      rw [execState, hbyte, hnext]
    obtain ⟨frame, rfl, hframe⟩ := (represents_iff hs.storage).mp h
    exact (represents_iff (s := execState .read s) hs.storage).mpr
      ⟨frame, (congrArg (refOf frame) hread).symm, congrArg (execState .read) hframe⟩

theorem activeState_represents {s : State} {a : Ref} (hs : s.Shape) (h : Represents s a) (inp : CycleInput) :
    Represents (activeState inp s) (service inp.rd (endOfDrain (inp.rx.foldl takeToken a))) :=
  have hdrain := drainState_shape hs inp.rx
  serviceState_represents (endState_inv hdrain) (endState_represents hdrain (drainState_represents hs h inp.rx)) inp.rd

theorem reset_represents {s : State} {a : Ref} (hs : s.Shape) (h : Represents s a) :
    Represents (execState .reset s)
      { a with ptr := 0, duty := List.replicate a.cfg.n 0, frame := [], run := .running } := by
  obtain ⟨frame, rfl, -⟩ := (represents_iff hs.storage).mp h
  exact (represents_iff (s := execState .reset s) hs.storage).mpr ⟨[], rfl, withFrame_nil rfl⟩

theorem cancel_represents {s : State} {a : Ref} (hs : s.Shape) (h : Represents s a) :
    Represents (execState .cancel s) { a with run := .stopped, frame := [] } := by
  obtain ⟨frame, rfl, -⟩ := (represents_iff hs.storage).mp h
  exact (represents_iff (s := execState .cancel s) hs.storage).mpr ⟨[], rfl, withFrame_nil rfl⟩

/-! ### The simulation of a step -/

/-- The reference state a cycle starts its operations from: the inputs taken, the outputs empty (R180). -/
def Ref.cycleStart (a : Ref) : Ref :=
  { a with inputs := a.inputs.tail, tx := none, dutyWe := false, driverCalls := [] }

/-- The reference's step, from `Ref.cycleStart` on. -/
theorem step_eq (a : Ref) :
    step a =
      let inp := a.inputs.headD CycleInput.quiet
      if inp.rst then
        { a.cycleStart with ptr := 0, duty := List.replicate a.cfg.n 0, frame := [], run := .running }
      else if a.run = .stopped then a.cycleStart
      else if inp.cancel then { a.cycleStart with run := .stopped, frame := [] }
      else service inp.rd (endOfDrain (inp.rx.foldl takeToken a.cycleStart)) := rfl

theorem cycleStart_represents {s : State} {a : Ref} (hs : s.Shape) (h : Represents s a) :
    Represents (cycleStart s) a.cycleStart := by
  obtain ⟨frame, rfl, hframe⟩ := (represents_iff hs.storage).mp h
  exact (represents_iff (s := cycleStart s) hs.storage).mpr ⟨frame, rfl, congrArg cycleStart hframe⟩

/-- The simulation: the four kinds of cycle in the order of R205, on both sides. -/
theorem stepState_represents {s : State} {a : Ref} (hs : s.Inv) (h : Represents s a) :
    Represents (stepState s) (step a) := by
  have hstart := cycleStart_represents (State.inv_iff_shape.mp hs).1 h
  have hshape := (State.inv_iff_shape.mp (cycleStart_inv hs)).1
  rw [step_eq]
  simp only [stepState, cycleState, nextInput, h.inputs, cycleStart_run, h.run]
  split_ifs
  · exact reset_represents hshape hstart
  · exact hstart
  · exact cancel_represents hshape hstart
  · exact activeState_represents hshape hstart _

/-- Settles O53, by the simulation `stepState_represents` from the reset state on. -/
theorem blockRefinesReference : Obligations.BlockRefinesReference :=
  ⟨fun cfg inputs _ => ofConfig_represents cfg inputs,
    fun s _ hs h => ⟨stepState s, step_next hs.config, stepState_represents hs h⟩⟩

end Sys2Proof.Reference

namespace Sys2Proof.Machine

/-! ### COLLECT and one write transaction -/

/-- Settles O1: with neither control input set a RUNNING cycle decodes no control operation and is its active part. -/
theorem collectStoresAndCounts : Obligations.CollectStoresAndCounts := by
  intro b s
  refine ⟨rfl, fun rest => rfl, fun inp hrun hrst hcancel => ?_⟩
  rw [cycle, hrst, hrun, hcancel]
  rfl

/-- Settles O20, by `step_decodedFrame`; the operation is one that a frame selects. -/
theorem stepRunsDecodedFrame : Obligations.StepRunsDecodedFrame := by
  intro s bytes rd i hready hi
  refine ⟨?_, step_decodedFrame hready hi⟩
  rw [eq_decodeFrame_of_decode hi]
  exact decodeFrame_wellFormed _ _ _

/-! ### The dispatch points of the two framing modes -/

theorem framerState_eq_idle_iff {s : State} : framerState s = .idle ↔ s.flen = 0 := by
  simp [framerState]

theorem framerState_eq_collecting_iff {s : State} : framerState s = .collecting ↔ 0 < s.flen := by
  simp [framerState, Nat.pos_iff_ne_zero]

/-- In DRAIN an `END` is ignored (R125). -/
theorem takeToken_endMark_drain {s : State} (h : s.cfg.framing = .drain) : takeToken .endMark s = .next s :=
  if_neg (by simp [h])

/-- In EOT an `END` is a dispatch point (R123). -/
theorem takeToken_endMark_eot {s : State} (h : s.cfg.framing = .eot) : takeToken .endMark s = dispatch s :=
  if_pos h

/-- In EOT the end of the drain is no dispatch point (R124). -/
theorem endState_eot {s : State} (h : s.cfg.framing = .eot) : endState s = s :=
  if_neg (by simp [h])

/-- Settles O25, row by row of R129. -/
theorem framerTransitions : Obligations.FramerTransitions := by
  intro s hv
  have hn := hv.1
  refine ⟨fun b => ⟨appendByte b s, rfl, framerState_eq_collecting_iff.mpr ?_⟩,
    ⟨dispatchState s, dispatch_next s, framerState_eq_idle_iff.mpr rfl⟩,
    fun hdrain => ⟨fun hopen => ?_, fun hidle => ?_, takeToken_endMark_drain hdrain⟩,
    fun heot => ⟨takeToken_endMark_eot heot, fun hidle => ?_, ?_⟩,
    ⟨_, rfl, framerState_eq_idle_iff.mpr rfl⟩, ⟨_, rfl, framerState_eq_idle_iff.mpr rfl⟩⟩
  · rw [appendByte_flen]
    omega
  · exact if_pos ⟨hdrain, framerState_eq_collecting_iff.mp hopen⟩
  · rw [endOfDrain_next, endState_of_idle (framerState_eq_idle_iff.mp hidle)]
  · have h0 := framerState_eq_idle_iff.mp hidle
    exact decodeFrame_other (by omega) (by omega) _
  · rw [endOfDrain_next, endState_eot heot]

theorem stepState_active {s : State} (hrun : s.run = .running) (hrst : (nextInput s).rst = false)
    (hcancel : (nextInput s).cancel = false) : stepState s = activeState (nextInput s) (cycleStart s) := by
  simp [stepState, cycleState, hrun, hrst, hcancel]

/-- In DRAIN a drain collects one frame, the sequence of its data bytes (R121). -/
theorem drainState_eq_withFrame {s : State} (hs : s.Inv) (hdrain : s.cfg.framing = .drain) (rx : List Token) :
    drainState rx s = withFrame (dataBytes rx) s := by
  rw [drainState_eq_dataBytes hdrain, drainState_data hs.storage (hs.drainIdle hdrain)]

/-- Settles O26: the end of the drain meets the frame of the cycle's data bytes, and dispatches it if there are any. -/
theorem drainModeDispatchesOnce : Obligations.DrainModeDispatchesOnce := by
  intro s hinv hrun hdrain hrst hcancel
  have hidle : (cycleStart s).flen = 0 := hinv.drainIdle hdrain
  have hstep : step s = service (nextInput s).rd (endState (withFrame (dataBytes (nextInput s).rx) (cycleStart s))) := by
    rw [step_next hinv.config, stepState_active hrun hrst hcancel, activeState,
      drainState_eq_withFrame (cycleStart_inv hinv) hdrain, service_next]
  refine ⟨fun hnone => ?_, fun hsome => ?_⟩
  · rw [hstep, hnone, withFrame_nil hidle, endState_of_idle hidle]
  · rw [hstep, endState, if_pos ⟨hdrain, withFrame_flen_pos hsome _⟩, dispatch_next, andThen_next]

/-- Settles O27: only the active part of a cycle reads the tokens, and its drain sees the data bytes alone. -/
theorem drainModeIgnoresEndMarks : Obligations.DrainModeIgnoresEndMarks := by
  intro s inp hdrain
  refine ⟨takeToken_endMark_drain hdrain, ?_⟩
  have hactive : activeState inp (clearOutputs s) =
      activeState { inp with rx := (dataBytes inp.rx).map Token.data } (clearOutputs s) := by
    rw [activeState, drainState_eq_dataBytes (s := clearOutputs s) hdrain]
    rfl
  rw [cycle_next, cycle_next, cycleState, hactive]
  rfl

/-- Settles O28: each frame with its `END` is the tokens of one write transaction in EOT. -/
theorem eotDispatchesEachTransaction : Obligations.EotDispatchesEachTransaction := by
  intro s frames hinv heot
  refine ⟨takeToken_endMark_eot heot, fun h0 => ?_,
    fun h0 => drain_writeTokens_eot (State.inv_iff_shape.mp hinv).1 heot h0 frames⟩
  rw [dispatch_next, dispatchState_of_idle hinv.config h0]

/-! ### A write transaction split over two cycles -/

/-- In EOT a cycle that serves no read is its drain (R124, R161). -/
theorem stepState_eot {s : State} {rx : List Token} (hrun : s.run = .running) (heot : s.cfg.framing = .eot)
    (hin : nextInput s = .plain rx false) : stepState s = drainState rx (cycleStart s) := by
  have heot' : (drainState rx (cycleStart s)).cfg.framing = .eot := by rwa [drainState_cfg]
  rw [stepState_active hrun (by rw [hin]; rfl) (by rw [hin]; rfl), hin, activeState, plain_rx, plain_rd,
    endState_eot heot']
  rfl

theorem writeTokens_append (f : Framing) (front back : List Byte) :
    writeTokens f (front ++ back) = front.map Token.data ++ writeTokens f back := by
  simp [writeTokens]

theorem stepN_two {s : State} (hv : s.cfg.Valid) : stepN 2 s = .next (stepState (stepState s)) := by
  rw [stepN_succ hv, stepN_succ (by rwa [stepState_cfg]), stepN]

/-- The frame left open by the first cycle is collected further by the second: the two end in the state of the one cycle
that delivers the whole transaction (R124). -/
theorem stepState_splitWrite {s : State} {front back : List Byte} {rest : List CycleInput}
    (hstorage : s.fbuf.length = 2 * s.cfg.n) (hrun : s.run = .running) (h0 : s.flen = 0) (heot : s.cfg.framing = .eot)
    (hin : s.inputs = .plain (front.map Token.data) false :: writeCycle .eot back :: rest) :
    stepState (stepState s) = stepState { s with inputs := writeCycle .eot (front ++ back) :: rest } := by
  have hopen : stepState s = withFrame front (cycleStart s) := by
    rw [stepState_eot (rx := front.map Token.data) hrun heot (by rw [nextInput, hin, List.headD_cons])]
    exact drainState_data (s := cycleStart s) hstorage h0 front
  have hnext : nextInput (withFrame front (cycleStart s)) = writeCycle .eot back := by simp [nextInput, hin]
  have hstart : cycleStart (cycleStart s) = cycleStart { s with inputs := writeCycle .eot (front ++ back) :: rest } := by
    simp [cycleStart, popInput, clearOutputs, hin]
  calc stepState (stepState s)
      = drainState (writeTokens .eot back) (cycleStart (withFrame front (cycleStart s))) := by
        rw [hopen]
        exact stepState_eot (s := withFrame front (cycleStart s)) hrun heot hnext
    _ = drainState (writeTokens .eot back) (withFrame front (cycleStart (cycleStart s))) := rfl
    _ = drainState (writeTokens .eot (front ++ back)) (cycleStart (cycleStart s)) := by
        rw [← drainState_data (s := cycleStart (cycleStart s)) hstorage h0, ← drainState_append, writeTokens_append]
    _ = stepState { s with inputs := writeCycle .eot (front ++ back) :: rest } := by
        rw [hstart]
        exact (stepState_eot (s := { s with inputs := writeCycle .eot (front ++ back) :: rest }) hrun heot rfl).symm

/-- Settles O30: the split and the whole delivery end in the same state. -/
theorem eotSplitWriteIsWhole : Obligations.EotSplitWriteIsWhole := by
  intro s front back rest hinv hrun h0 heot
  refine ⟨_, _, (stepN_two ?_).trans (congrArg _ (stepState_splitWrite ?_ hrun h0 heot rfl)),
    step_next hinv.config, rfl, rfl, rfl, rfl⟩
  · exact hinv.config
  · exact hinv.storage

end Sys2Proof.Machine

/-! The write dispatch family: the three operations a frame selects (O3, O4, O5), the same duty frame written twice
(O44), and a written duty frame read back through the map (O46). -/

namespace Sys2Proof

/-- A duty value is its high byte times 256 plus its low byte (R14, R87). -/
theorem dutyOf_toNat (hi lo : Byte) : (dutyOf hi lo).toNat = hi.toNat * 256 + lo.toNat := by
  rw [dutyOf, BitVec.toNat_append, ← Nat.shiftLeft_add_eq_or_of_lt lo.isLt, Nat.shiftLeft_eq]

namespace Machine

/-! ### The operations a frame selects -/

/-- Settles O4: SetAll of `N` values, and the operands of a WRDUTY index by index. -/
theorem wrdutyReplacesBank : Obligations.WrdutyReplacesBank := by
  refine ⟨fun v s hlen => ?_, fun n fbuf _ => ⟨_, decodeFrame_two_n n fbuf, dutyOperands_length n fbuf, fun i hi =>
    ⟨_, dutyOperands_getElem? n fbuf hi, ?_⟩⟩⟩
  · rw [exec_next, execState, setAll_of_length hlen]
  · rw [dutyOf_toNat, Nat.mod_eq_of_lt (BitVec.isLt _), Nat.mod_eq_of_lt (BitVec.isLt _)]

/-- READ at the pointer `p`: the map byte there is sent and the pointer advances (R160). -/
theorem exec_read_of_ptr (p : Byte) (s : State) :
    exec .read { s with ptr := p } = .next { s with ptr := p + 1, tx := some (mapRead s p) } := by
  have hbyte : mapRead { s with ptr := p } p = mapRead s p := mapRead_congr rfl rfl p
  rw [exec_next, execState, readValue_eq, hbyte]
  rfl

/-- Settles O3: the READs after a SETPTR are READs at the pointer it loaded. -/
theorem setptrLoadsPointer : Obligations.SetptrLoadsPointer := by
  intro p s
  refine ⟨fun b hb => ?_, exec_next _ s, fun hp => ?_, exec_read_of_ptr 255 s, exec_read_of_ptr 0 s⟩
  · rw [decodeFrame_one, List.getD_eq_getElem?_getD, hb, Option.getD_some]
  · rw [exec_read_of_ptr, mapRead_of_length_le (s := s) hp]

/-- Settles O5. -/
theorem discardChangesNothing : Obligations.DiscardChangesNothing := by
  intro s
  refine ⟨exec_next _ s, fun h1 h2 => ?_⟩
  have hdiscard := decodeFrame_other h1 h2 s.fbuf
  refine ⟨hdiscard, ?_⟩
  rw [dispatch_next, dispatchState, hdiscard]
  rfl

/-! ### One write transaction after another -/

theorem State.ReadyFor.of_inputs {s : State} {inp : CycleInput} {rest : List CycleInput} (hinv : s.Inv)
    (hrun : s.run = .running) (h0 : s.flen = 0) (hin : s.inputs = inp :: rest) : s.ReadyFor inp :=
  ⟨hinv, hrun, h0, by rw [nextInput, hin, List.headD_cons]⟩

/-- A cycle with one write transaction leaves no frame open (R128). -/
theorem stepState_write_flen {s : State} {bytes : List Byte} {rd : Bool}
    (h : s.ReadyFor (.plain (writeTokens s.cfg.framing bytes) rd)) : (stepState s).flen = 0 := by
  rw [stepState_write h, serviceState_flen, dispatchState_flen]

/-- After one write transaction the block is ready for the next one listed. -/
theorem State.ReadyFor.next_write {s : State} {bytes bytes' : List Byte} {rest : List CycleInput}
    (h : s.ReadyFor (writeCycle s.cfg.framing bytes))
    (hin : s.inputs.tail = writeCycle s.cfg.framing bytes' :: rest) :
    (stepState s).ReadyFor (writeCycle (stepState s).cfg.framing bytes') := by
  rw [stepState_cfg]
  exact h.after_step hin (stepState_write_flen h)

/-- What the cycle of a duty frame shows: its values, written, and no byte sent (R141, R187). -/
theorem observe_dutyFrame {s : State} {bytes : List Byte} (hlen : bytes.length = 2 * s.cfg.n)
    (h : s.ReadyFor (writeCycle s.cfg.framing bytes)) :
    observe (stepState s) = { tx := none, dutyWe := true, dutyOut := dutyOperands s.cfg.n bytes } := by
  rw [stepState_dutyFrame hlen h]
  rfl

/-- What the cycle of a discarded frame shows: the duties as they were (R142, R187). -/
theorem observe_otherWrite {s : State} {bytes : List Byte} (h1 : bytes.length ≠ 1) (h2 : bytes.length ≠ 2 * s.cfg.n)
    (h : s.ReadyFor (writeCycle s.cfg.framing bytes)) :
    observe (stepState s) = { tx := none, dutyWe := false, dutyOut := s.duty } := by
  rw [stepState_otherWrite h1 h2 h]
  rfl

/-- Settles O44: every cycle of the duty frame shows the frame's values, and the discarded one those already there. -/
theorem dutyWriteIdempotent : Obligations.DutyWriteIdempotent := by
  intro s bytes other rest hinv hrun h0 hlen h1 h2
  have hv := hinv.config
  have hcfg := stepState_cfg s
  have hcfg' := (stepState_cfg (stepState s)).trans hcfg
  refine ⟨dutyOperands s.cfg.n bytes, dutyOperands_length _ _, fun hin => ?_, fun hin => ?_⟩
  · have hready := State.ReadyFor.of_inputs hinv hrun h0 hin
    have hready' := hready.next_write (congrArg List.tail hin)
    rw [trace_succ hv, trace_succ (hcfg ▸ hv), observe_dutyFrame hlen hready,
      observe_dutyFrame (hcfg ▸ hlen) hready', hcfg]
    rfl
  · have hready := State.ReadyFor.of_inputs hinv hrun h0 hin
    have hready' := hready.next_write (congrArg List.tail hin)
    have hready'' := hready'.next_write (bytes' := bytes) (rest := rest) (by rw [stepState_inputs, hin, hcfg]; rfl)
    have hobs := observe_dutyFrame hlen hready
    have hduty : (stepState s).duty = dutyOperands s.cfg.n bytes := congrArg Obs.dutyOut hobs
    rw [trace_succ hv, trace_succ (hcfg ▸ hv), trace_succ (hcfg' ▸ hv), hobs,
      observe_otherWrite h1 (hcfg ▸ h2) hready', observe_dutyFrame (hcfg' ▸ hlen) hready'', hduty, hcfg']
    rfl

/-! ### Consecutive reads -/

/-- A read cycle is a READ and nothing else, with an open EOT frame too (R124, R160). -/
theorem stepState_read_of_inv {s : State} (hinv : s.Inv) (hrun : s.run = .running) (hin : nextInput s = readCycle) :
    stepState s = execState .read (cycleStart s) := by
  have hend : endState (cycleStart s) = cycleStart s := by
    cases hf : s.cfg.framing with
    | drain => exact endState_of_idle (s := cycleStart s) (hinv.drainIdle hf)
    | eot => exact endState_eot (s := cycleStart s) hf
  rw [stepState_active hrun (by rw [hin]; rfl) (by rw [hin]; rfl), hin]
  exact congrArg (execState .read) hend

/-- Read cycles send the map bytes from the pointer on, the pointer wrapping as a byte does, and write no duty (R162). -/
theorem trace_reads {k : Nat} {s : State} {rest : List CycleInput} (hinv : s.Inv) (hrun : s.run = .running)
    (hin : s.inputs = List.replicate k readCycle ++ rest) :
    trace k s = (List.range k).map fun j =>
      { tx := some (mapRead s (s.ptr + BitVec.ofNat 8 j)), dutyWe := false, dutyOut := s.duty } := by
  induction k generalizing s with
  | zero => rfl
  | succ k ih =>
    rw [List.replicate_succ, List.cons_append] at hin
    have hv := hinv.config
    have hread := stepState_read_of_inv hinv hrun (by rw [nextInput, hin, List.headD_cons])
    have hrest := ih (step_inv hinv (step_next hv)) (by rw [hread]; exact hrun)
      (by rw [stepState_inputs, hin, List.tail_cons])
    have hobs : observe (stepState s) = { tx := some (mapRead s s.ptr), dutyWe := false, dutyOut := s.duty } := by
      rw [hread, observe, execState_read_tx]
      rfl
    have hduty : (stepState s).duty = s.duty := congrArg Obs.dutyOut hobs
    have hptr : (stepState s).ptr = s.ptr + 1 := by rw [hread]; rfl
    rw [trace_succ hv, hobs, hrest, List.range_succ_eq_map, List.map_cons, List.map_map]
    congr 1
    · simp
    · refine List.map_congr_left fun j _ => ?_
      have haddr : s.ptr + 1 + BitVec.ofNat 8 j = s.ptr + BitVec.ofNat 8 (j + 1) := by
        rw [BitVec.add_assoc, Nat.add_comm j, BitVec.ofNat_add]
        rfl
      rw [Function.comp_apply, hptr, haddr, hduty, mapRead_congr (stepState_cfg s) hduty]

/-- Where the duties are those of a frame, `2N` reads from address 2 send the frame's bytes (R83, R162). -/
theorem trace_reads_dutyFrame {s : State} {bytes : List Byte} {rest : List CycleInput} (hinv : s.Inv)
    (hrun : s.run = .running) (hlen : bytes.length = 2 * s.cfg.n) (hptr : s.ptr = 2)
    (hduty : s.duty = dutyOperands s.cfg.n bytes)
    (hin : s.inputs = List.replicate (2 * s.cfg.n) readCycle ++ rest) :
    (trace (2 * s.cfg.n) s).map Obs.tx = bytes.map some := by
  obtain ⟨-, hn⟩ := hinv.config
  rw [trace_reads hinv hrun hin, List.map_map]
  refine List.ext_getElem (by simp [hlen]) fun k hk _ => ?_
  have hk' : k < 2 * s.cfg.n := by simpa using hk
  have haddr : (2 + BitVec.ofNat 8 k : Byte).toNat = k + 2 := by bv_omega
  have hbyte := some_mapRead_dutyOperands hlen hduty hk' haddr
  rw [List.getElem?_eq_getElem (by omega)] at hbyte
  simpa [hptr] using hbyte

/-- Settles O46: the duty frame is written, `W 2` sets the pointer and keeps the duties, and the reads send the frame. -/
theorem writeThenReadRoundTrip : Obligations.WriteThenReadRoundTrip := by
  intro s bytes rest hinv hrun h0 hlen hin
  replace hin : s.inputs = writeCycle s.cfg.framing bytes :: writeCycle s.cfg.framing [2] ::
      (List.replicate (2 * s.cfg.n) readCycle ++ rest) := by
    simpa [assemble, ScriptLine.cycles] using hin
  have hv := hinv.config
  have hn := hv.1
  have hcfg := stepState_cfg s
  have hcfg' := (stepState_cfg (stepState s)).trans hcfg
  have hready := State.ReadyFor.of_inputs hinv hrun h0 hin
  have hready' := hready.next_write (congrArg List.tail hin)
  have hwrite := observe_dutyFrame hlen hready
  obtain ⟨hptr, hset⟩ := stepState_shortWrite (by rw [hcfg, List.length_singleton]; omega) hready'
  have hduty : (stepState (stepState s)).duty = dutyOperands s.cfg.n bytes :=
    (congrArg Obs.dutyOut hset).trans (congrArg Obs.dutyOut hwrite)
  have hreads : (trace (2 * s.cfg.n) (stepState (stepState s))).map Obs.tx = bytes.map some := by
    have h := trace_reads_dutyFrame (s := stepState (stepState s)) (bytes := bytes) (rest := rest)
      (step_inv hready'.inv (step_next hready'.inv.config)) hready'.stepState_run
    rw [hcfg'] at h
    exact h hlen hptr hduty (by rw [stepState_inputs, stepState_inputs, hin]; rfl)
  rw [trace_succ hv, trace_succ (hcfg ▸ hv), List.map_cons, List.map_cons, hreads, hwrite, hset]

end Machine

end Sys2Proof

/-! The read service family: the two operations a read level selects (O6, O7), a cycle that holds a read level and no token
(O21), and the map streamed by consecutive reads (O45). -/

namespace Sys2Proof.Machine

/-! ### READ -/

/-- Byte addition is addition modulo 256, the pointer arithmetic of R160 and R162. -/
theorem add_ofNat_eq_mod (p : Byte) (j : Nat) : p + BitVec.ofNat 8 j = BitVec.ofNat 8 ((p.toNat + j) % 256) := by
  apply BitVec.eq_of_toNat_eq
  simp

/-- The last map byte, at address `L - 1`, is the low byte of the last duty (R51). -/
theorem mapRead_last {s : State} (hinv : s.Inv) {a : Byte} (ha : a.toNat = 2 * s.cfg.n + 1) :
    mapRead s a = dutyLo (s.duty.getD (s.cfg.n - 1) 0) := by
  obtain ⟨hn, -⟩ := hinv.config
  have hlast : s.cfg.n - 1 < s.duty.length := by rw [hinv.dutyCount]; omega
  have hd : s.duty[s.cfg.n - 1]? = some s.duty[s.cfg.n - 1] := List.getElem?_eq_getElem hlast
  rw [mapRead_low (by omega) hd (by omega), List.getD_eq_getElem?_getD, hd, Option.getD_some]

/-- A READ at the last pointer value wraps the pointer to 0 (R160). -/
theorem exec_read_of_ptr_255 {s : State} (hp : s.ptr = 255) :
    exec .read s = .next { s with tx := some (mapRead s 255), ptr := 0 } := by
  have hs : { s with ptr := 255 } = s := by rw [← hp]
  calc exec .read s = exec .read { s with ptr := 255 } := by rw [hs]
    _ = .next { s with tx := some (mapRead s 255), ptr := 0 } := exec_read_of_ptr 255 s

/-- Settles O6: with 127 channels address 255 is the map's last byte, with fewer it is past the map's end. -/
theorem readServesMapByte : Obligations.ReadServesMapByte := by
  intro s
  refine ⟨rfl, ?_, fun hinv hp => mapRead_last hinv hp, fun hinv hp hn => ?_, fun hinv hp hn => ?_⟩
  · rw [← add_ofNat_eq_mod]
    exact exec_next .read s
  · rw [exec_read_of_ptr_255 hp, mapRead_last hinv (by rw [hn]; rfl), hn]
  · obtain ⟨-, hmax⟩ := hinv.config
    have hend : mapLength s ≤ (255 : Byte).toNat := by
      simp only [mapLength, BitVec.reduceToNat]
      omega
    rw [exec_read_of_ptr_255 hp, mapRead_of_length_le hend]

/-! ### NOREAD -/

/-- DISPATCH sends no byte: none of the operations a frame selects writes `tx` (R140 to R142). -/
@[simp] theorem dispatchState_tx (s : State) : (dispatchState s).tx = s.tx := by
  obtain ⟨-, h⟩ | ⟨-, h⟩ | ⟨-, -, h⟩ := dispatchState_cases s <;> simp [h]

@[simp] theorem tokenState_tx (s : State) (tok : Token) : (tokenState s tok).tx = s.tx := by
  cases tok with
  | data b => rfl
  | endMark => simp only [tokenState]; split <;> simp

@[simp] theorem drainState_tx (rx : List Token) (s : State) : (drainState rx s).tx = s.tx := by
  induction rx generalizing s with
  | nil => rfl
  | cons tok rest ih => simp [ih]

@[simp] theorem endState_tx (s : State) : (endState s).tx = s.tx := by
  simp only [endState]; split <;> simp

/-- Settles O7: the outputs start the cycle empty, and no part of it but the read service writes `tx`. -/
theorem noreadSendsNothing : Obligations.NoreadSendsNothing := by
  intro s
  refine ⟨rfl, exec_next _ s, fun hv hrun hrst hcancel hrd => ⟨stepState s, step_next hv, ?_⟩⟩
  rw [stepState_active hrun hrst hcancel, activeState, hrd]
  exact (endState_tx _).trans (drainState_tx _ _)

/-! ### A cycle with a read level and no token -/

/-- Without a token a cycle of either mode has no dispatch point: in DRAIN no frame is open at its start (R122), and in EOT
the end of the drain is none (R124). -/
theorem endState_cycleStart {s : State} (hinv : s.Inv) : endState (cycleStart s) = cycleStart s := by
  cases hf : s.cfg.framing with
  | drain => exact endState_of_idle (s := cycleStart s) (hinv.drainIdle hf)
  | eot => exact endState_eot (s := cycleStart s) hf

/-- Settles O21: the drain and its end leave `cycleStart` as it is, so the read service alone runs. -/
theorem stepRunsReadService : Obligations.StepRunsReadService := by
  intro s rd i hinv hrun hin hi
  have hv := hinv.config
  rw [decode_service hv] at hi
  obtain rfl := Decoded.instr.inj hi
  rw [step_next hv, stepState_active hrun (by rw [hin]; rfl) (by rw [hin]; rfl), hin, activeState, plain_rx,
    drainState_nil, endState_cycleStart hinv, plain_rd, exec_next]

/-! ### The pointer after consecutive reads -/

/-- Read cycles leave the pointer as many addresses further on, wrapping as a byte does (R162). -/
theorem stepN_reads {k : Nat} {s : State} {rest : List CycleInput} (hinv : s.Inv) (hrun : s.run = .running)
    (hin : s.inputs = List.replicate k readCycle ++ rest) :
    ∃ t, stepN k s = .next t ∧ t.ptr = s.ptr + BitVec.ofNat 8 k := by
  induction k generalizing s with
  | zero => exact ⟨s, rfl, (BitVec.add_zero _).symm⟩
  | succ k ih =>
    rw [List.replicate_succ, List.cons_append] at hin
    have hv := hinv.config
    have hread := stepState_read_of_inv hinv hrun (by rw [nextInput, hin, List.headD_cons])
    obtain ⟨t, hsteps, hptr⟩ := ih (step_inv hinv (step_next hv)) (by rw [hread]; exact hrun)
      (by rw [stepState_inputs, hin, List.tail_cons])
    refine ⟨t, (stepN_succ hv k).trans hsteps, ?_⟩
    rw [hptr, hread, execState_read_ptr, cycleStart_ptr, BitVec.add_assoc, Nat.add_comm k, BitVec.ofNat_add]
    rfl

/-- Settles O45, by `trace_reads` and `stepN_reads`. -/
theorem sequentialReadStreamsMap : Obligations.SequentialReadStreamsMap := by
  intro k s rest hinv hrun hin
  simp only [← add_ofNat_eq_mod]
  exact ⟨trace_reads hinv hrun hin, stepN_reads hinv hrun hin⟩

end Sys2Proof.Machine

/-! The poll cycle family: a step for each outcome of R205's tests, and from it the control operations (O8, O19), the order
of a cycle (O23), the STOPPED and the quiet cycle (O38, O39) and the byte a cycle sends (O42). -/

namespace Sys2Proof

/-- Control inputs that select no operation are rejected by name (R205). -/
theorem decode_control_none {cfg : Config} (h : cfg.Valid) {rst cancel : Bool} {run : RunState}
    (hi : decodeControl rst run cancel = none) : decode cfg (.control rst run cancel) = .rejected .noControl := by
  unfold decode; rw [if_neg (not_not_intro h)]; simp only [hi]

/-- The converse of `decode_control`: a control code decodes to nothing but what its inputs select. -/
theorem decodeControl_of_decode {cfg : Config} {rst cancel : Bool} {run : RunState} {i : Instr}
    (h : decode cfg (.control rst run cancel) = .instr i) : decodeControl rst run cancel = some i := by
  have hv := valid_of_decode h
  cases hc : decodeControl rst run cancel with
  | none =>
    rw [decode_control_none hv hc] at h
    cases h
  | some j =>
    rw [decode_control hv hc] at h
    rw [Decoded.instr.inj h]

namespace Machine

/-! ### A step, by the tests of R205 -/

/-- The control operation a cycle's inputs select is the whole of the cycle (R205). -/
theorem step_control {s : State} {i : Instr} (hv : s.cfg.Valid)
    (hi : decodeControl (nextInput s).rst s.run (nextInput s).cancel = some i) : step s = exec i (cycleStart s) := by
  rw [step, pollCycle, if_pos hv, cycle, popInput_run, hi]
  rfl

theorem step_reset {s : State} (hv : s.cfg.Valid) (hrst : (nextInput s).rst = true) :
    step s = exec .reset (cycleStart s) :=
  step_control hv (by rw [hrst]; rfl)

theorem step_cancel {s : State} (hv : s.cfg.Valid) (hrun : s.run = .running) (hrst : (nextInput s).rst = false)
    (hcancel : (nextInput s).cancel = true) : step s = exec .cancel (cycleStart s) :=
  step_control hv (by rw [hrst, hrun, hcancel]; rfl)

theorem step_stopped {s : State} (hv : s.cfg.Valid) (hrun : s.run = .stopped) (hrst : (nextInput s).rst = false) :
    step s = .next (cycleStart s) := by
  simp [step_next hv, stepState, cycleState, hrun, hrst]

theorem step_active {s : State} (hv : s.cfg.Valid) (hrun : s.run = .running) (hrst : (nextInput s).rst = false)
    (hcancel : (nextInput s).cancel = false) : step s = activeCycle (nextInput s) (cycleStart s) := by
  rw [step_next hv, stepState_active hrun hrst hcancel, activeCycle_next]

/-- The two operations of the read service (R86). -/
theorem service_eq (rd : Bool) (s : State) : service rd s = if rd then exec .read s else exec .noread s := by
  cases rd <;> rfl

/-- Parts (a) to (c) of R180, with the end of the drain and the read service written out. -/
theorem activeCycle_eq (inp : CycleInput) (s : State) :
    activeCycle inp s =
      andThen (drain inp.rx s) fun t =>
        andThen (if t.cfg.framing = .drain ∧ 0 < t.flen then dispatch t else .next t) fun u =>
          if inp.rd then exec .read u else exec .noread u := by
  simp only [activeCycle, endOfDrain, service_eq]

/-! ### The byte a cycle sends -/

@[simp] theorem execState_reset_tx (s : State) : (execState .reset s).tx = s.tx := rfl

@[simp] theorem execState_cancel_tx (s : State) : (execState .cancel s).tx = s.tx := rfl

/-- From empty outputs the read service sends a byte exactly for a pending read (R160, R161). -/
theorem serviceState_tx_ne_none_iff {s : State} (h : s.tx = none) (rd : Bool) :
    (execState (decodeService rd) s).tx ≠ none ↔ rd = true := by
  cases rd with
  | false => exact iff_of_false (not_not_intro h) Bool.false_ne_true
  | true => exact iff_of_true (Option.some_ne_none _) rfl

/-- The drain and its end send no byte, so parts (a) to (c) send one exactly if the read service does (R182). -/
theorem activeState_tx_ne_none_iff {s : State} (h : s.tx = none) (inp : CycleInput) :
    (activeState inp s).tx ≠ none ↔ inp.rd = true :=
  serviceState_tx_ne_none_iff (by rw [endState_tx, drainState_tx, h]) inp.rd

/-- Settles O42: of the four kinds of cycle only the active one reaches the read service. -/
theorem byteSentExactlyOnRead : Obligations.ByteSentExactlyOnRead := by
  intro s t hstep
  obtain ⟨-, ⟨hrst, rfl⟩ | ⟨hrst, hrun, rfl⟩ | ⟨hrst, hrun, hcancel, rfl⟩ | ⟨hrst, hrun, hcancel, rfl⟩⟩ :=
    step_cases hstep
  · simp [hrst]
  · simp [hrun]
  · simp [hcancel]
  · rw [activeState_tx_ne_none_iff (cycleStart_tx s)]
    simp [hrst, hrun, hcancel]

/-! ### The control operations and the order of a cycle -/

/-- Settles O8: CANCEL is the whole of its RUNNING cycle, and a STOPPED cycle passes over `cancel`. -/
theorem cancelStopsAndDropsFrame : Obligations.CancelStopsAndDropsFrame := by
  intro s
  refine ⟨rfl, fun hv hrst hcancel => ⟨fun hrun => ?_, fun hrun => ?_⟩⟩
  · rw [step_cancel hv hrun hrst hcancel]
    rfl
  · rw [step_stopped hv hrun hrst]
    rfl

/-- Settles O19, by `step_control`; an invalid configuration decodes to no operation. -/
theorem stepRunsControlOperation : Obligations.StepRunsControlOperation :=
  fun _ _ h => step_control (valid_of_decode h) (decodeControl_of_decode h)

/-- Settles O23: R205's tests in turn, and the drain by its recursion. -/
theorem cycleFollowsPollOrder : Obligations.CycleFollowsPollOrder := by
  intro s hv
  refine ⟨?_, fun t => ⟨rfl, fun _ _ => rfl, fun _ => rfl⟩⟩
  cases hrst : (nextInput s).rst with
  | true => exact step_reset hv hrst
  | false =>
    cases hrun : s.run with
    | stopped => exact step_stopped hv hrun hrst
    | running =>
      cases hcancel : (nextInput s).cancel with
      | true => exact step_cancel hv hrun hrst hcancel
      | false => exact (step_active hv hrun hrst hcancel).trans (activeCycle_eq _ _)

/-! ### The STOPPED and the quiet cycle -/

/-- Settles O38: the cycle ends in `cycleStart`, which is STOPPED still, so a step that ends RUNNING was a RESET. -/
theorem stoppedCycleIsInert : Obligations.StoppedCycleIsInert := by
  intro s hv hrun
  refine ⟨fun hrst => ⟨step_stopped hv hrun hrst, cycleStart s, step_stopped hv hrun hrst, rfl⟩, fun t hstep ht => ?_⟩
  obtain ⟨-, hleave, -⟩ := runStateChanges.1 s t hstep
  exact (hleave hrun).mp ht

/-- In a state of the block a cycle that neither drains a token nor serves a read leaves `cycleStart` as it is (R183). -/
theorem activeState_quiet {s : State} (hinv : s.Inv) : activeState .quiet (cycleStart s) = cycleStart s :=
  endState_cycleStart hinv

/-- A quiet cycle, RUNNING or STOPPED, changes the outputs and the inputs alone (R183, R185). -/
theorem step_quiet {s : State} (hinv : s.Inv) (hin : nextInput s = .quiet) : step s = .next (cycleStart s) := by
  have hv := hinv.config
  have hrst : (nextInput s).rst = false := by rw [hin]; rfl
  cases hrun : s.run with
  | running => rw [step_active hv hrun hrst (by rw [hin]; rfl), hin, activeCycle_next, activeState_quiet hinv]
  | stopped => exact step_stopped hv hrun hrst

/-- Settles O39, by `step_quiet`. -/
theorem quietCycleChangesNothing : Obligations.QuietCycleChangesNothing := fun _ => step_quiet

end Machine

end Sys2Proof

/-! The exceptions family: a step's outcome follows from its configuration alone (O32). -/

namespace Sys2Proof.Machine

/-- Neither outcome of a step is a fault (R200, R215); that `Fault` has no value is not used. -/
theorem step_ne_fault (s : State) (r : Fault) : step s ≠ .fault r := by
  intro hfault
  by_cases hv : s.cfg.Valid
  · rw [step_next hv] at hfault
    cases hfault
  · rw [step_refused hv] at hfault
    cases hfault

/-- Settles O32: `step_next` in a valid configuration, `step_refused` in any other. -/
theorem stepTotalWhenConfigured : Obligations.StepTotalWhenConfigured := by
  intro s
  exact ⟨fun hv => ⟨stepState s, step_next hv⟩, step_refused, step_ne_fault s⟩

end Sys2Proof.Machine

/-! The reset family: RESET gives the startup values in any run state (O9), and the values the state has after reset
(O35). -/

namespace Sys2Proof.Machine

/-! ### RESET -/

/-- The whole next state of RESET: pointer, duties, frame counter and run state are written and nothing else (R231). -/
theorem exec_reset_eq (s : State) :
    exec .reset s = .next { s with ptr := 0, duty := List.replicate s.cfg.n 0, flen := 0, run := .running } := rfl

/-- Settles O9: by `step_reset` the cycle of a RESET is the operation on `cycleStart s`, whose outputs are empty, so
`exec_reset_eq` gives both parts. -/
theorem resetRestoresStartup : Obligations.ResetRestoresStartup := by
  intro s
  refine ⟨⟨_, exec_reset_eq s, rfl, rfl, rfl, rfl, rfl, rfl, rfl, rfl, rfl⟩, fun hv hrst => ?_⟩
  have hstep := (step_reset hv hrst).trans (exec_reset_eq (cycleStart s))
  exact ⟨_, hstep, cycleStart_cfg s, rfl, rfl, rfl, rfl, cycleStart_tx s, cycleStart_dutyWe s, rfl⟩

/-! ### The state after reset -/

/-- The outputs are empty after reset, and every duty driven is 0 (R230). -/
theorem observe_ofConfig (cfg : Config) :
    observe (State.ofConfig cfg) = { tx := none, dutyWe := false, dutyOut := List.replicate cfg.n 0 } := rfl

/-- Settles O35: the values are the fields of `State.ofConfig`, the framer is IDLE because its counter is 0, and map bytes 0
and 1 read the configuration alone. -/
theorem resetStateValues : Obligations.ResetStateValues := by
  intro cfg
  have hidle : framerState (State.ofConfig cfg) = .idle := framerState_eq_idle_iff.mpr (ofConfig_flen cfg)
  exact ⟨ofConfig_ptr cfg, ofConfig_duty cfg, ofConfig_flen cfg, hidle, ofConfig_run cfg, observe_ofConfig cfg,
    mapRead_zero _, mapRead_one _, rfl⟩

end Sys2Proof.Machine
